-- ==== Sys2Proof/Word.lean ====
section
/-! DEFINITION. The word types of the machine and their plainest arithmetic (spec/00_scope.md R5, R7). -/

namespace Sys2Proof

/-- XLEN, TIMER_W and the width of a memory byte: 8 bits (R5). -/
abbrev Byte := BitVec 8

/-- I_W, PC_W, the width of a STACK entry and of an instruction word: 16 bits (R5, R29, R72). -/
abbrev Word := BitVec 16

/-- The immediate NNN, a 12-bit address (R72). -/
abbrev Addr := BitVec 12

/-- A register number X or Y: every value of a 4-bit field names a register (R21, R72). -/
abbrev RegNo := Fin 16

/-- A key number (R37). -/
abbrev KeyNo := Fin 16

/-- `zext_16` of an 8-bit value (R9). -/
def zextByte (b : Byte) : Word := b.setWidth 16

/-- `zext_16(NNN)` (R9, R75). -/
def zextAddr (a : Addr) : Word := a.setWidth 16

end Sys2Proof
end

