-- ==== Sys2Proof/Config.lean ====
section
/-! DEFINITION. What is fixed for a run (spec/00_scope.md R5, R6; spec/10_state.md R43) and the one free value of the
machine, the random draw (spec/60_exceptions.md R231). The open parameters of R6 are FIELDS of `Config`, and the state
carries a `Config` that no step changes, so a statement about every state is a statement about every FONT, every
DRAW_WRAP and every KEY_PRIORITY. -/

namespace Sys2Proof

/-- MEM_SIZE (R5). -/
abbrev memSize : Nat := 4096
/-- PROG_BASE, the first program address and the reset value of PC (R5). -/
abbrev progBase : Nat := 0x200
/-- MAX_ROM, the largest image load_program takes (R5). -/
abbrev maxRom : Nat := 3584
/-- FONT_LEN (R5). -/
abbrev fontLen : Nat := 80
/-- STACK_DEPTH (R5). -/
abbrev stackDepth : Nat := 16

/-- DRAW_WRAP (R6, R162): how DXYN wraps at the edge of the active grid. -/
inductive DrawWrap where
  /-- one reduction of the linear index x + y * W: the default, the spec's hardware (D15) -/
  | linear
  /-- each coordinate reduced by itself: the other reading R162 names -/
  | perAxis
  deriving DecidableEq, Repr

/-- KEY_PRIORITY (R6, R190): which key FX0A reports when several are down. -/
inductive KeyPriority where
  /-- max(P): the default, the spec's hardware (D18) -/
  | highest
  /-- min(P): the alternative R190 names -/
  | lowest
  deriving DecidableEq, Repr

/-- The open parameters of R6 that are configuration, fixed for a run (R43). -/
structure Config where
  /-- FONT: the 80 bytes of MEM[0..79] after reset (R40) -/
  font        : Vector Byte 80
  drawWrap    : DrawWrap
  keyPriority : KeyPriority
  deriving DecidableEq, Repr

/-- `rnd` of a cycle for which the host has scripted no input: a draw under no law (R231, R42; log entry 2). It has no
body: no value of it, and no relation between two of them, can be proved. -/
opaque Config.freeRnd : Nat → Byte

end Sys2Proof
end

