-- ==== Sys2Proof/Syntax.lean ====
section
/-! DEFINITION. The syntax of the instruction set: ONE inductive, one constructor for each of the 36 rows of
spec/opcode_table.json, named `op` and the row's pattern (spec/30_encoding.md R74, R85; files 40 to 47).
The ignored bits of 00E0, 00EE, 00FE, 00FF, 5XY0 and 9XY0 are no operand (R82); Y of 8XY6 and 8XYE is one, though not read. -/

namespace Sys2Proof

/-- The instruction set (R87: the 36 instructions with their fields). -/
inductive Instr where
  /-- 00E0, `CLS`: clear the framebuffer (R100) -/
  | op00E0
  /-- 00EE, `RET`: return from subroutine (R101) -/
  | op00EE
  /-- 00FE, `LOW`: leave extended mode (R102) -/
  | op00FE
  /-- 00FF, `HIGH`: enter extended mode (R103) -/
  | op00FF
  /-- 1NNN, `JP nnn`: jump (R110) -/
  | op1NNN (nnn : Addr)
  /-- 2NNN, `CALL nnn`: call subroutine (R111) -/
  | op2NNN (nnn : Addr)
  /-- 3XNN, `SE Vx, nn`: skip if VX = NN (R112) -/
  | op3XNN (x : RegNo) (nn : Byte)
  /-- 4XNN, `SNE Vx, nn`: skip if VX differs from NN (R113) -/
  | op4XNN (x : RegNo) (nn : Byte)
  /-- 5XY0, `SE Vx, Vy`: skip if VX = VY (R114) -/
  | op5XY0 (x : RegNo) (y : RegNo)
  /-- 6XNN, `LD Vx, nn`: load immediate (R120) -/
  | op6XNN (x : RegNo) (nn : Byte)
  /-- 7XNN, `ADD Vx, nn`: add immediate, no flag (R121) -/
  | op7XNN (x : RegNo) (nn : Byte)
  /-- 8XY0, `LD Vx, Vy`: assign (R132) -/
  | op8XY0 (x : RegNo) (y : RegNo)
  /-- 8XY1, `OR Vx, Vy`: bitwise OR (R133) -/
  | op8XY1 (x : RegNo) (y : RegNo)
  /-- 8XY2, `AND Vx, Vy`: bitwise AND (R134) -/
  | op8XY2 (x : RegNo) (y : RegNo)
  /-- 8XY3, `XOR Vx, Vy`: bitwise XOR (R135) -/
  | op8XY3 (x : RegNo) (y : RegNo)
  /-- 8XY4, `ADD Vx, Vy`: add, carry into VF (R136) -/
  | op8XY4 (x : RegNo) (y : RegNo)
  /-- 8XY5, `SUB Vx, Vy`: VX - VY, not-borrow into VF (R137) -/
  | op8XY5 (x : RegNo) (y : RegNo)
  /-- 8XY6, `SHR Vx`: shift VX right by one, bit 0 into VF; Y is encoded and not read (R140) (R139) -/
  | op8XY6 (x : RegNo) (y : RegNo)
  /-- 8XY7, `SUBN Vx, Vy`: VY - VX, not-borrow into VF (R138) -/
  | op8XY7 (x : RegNo) (y : RegNo)
  /-- 8XYE, `SHL Vx`: shift VX left by one, bit 7 into VF; Y is encoded and not read (R140) (R141) -/
  | op8XYE (x : RegNo) (y : RegNo)
  /-- 9XY0, `SNE Vx, Vy`: skip if VX differs from VY (R115) -/
  | op9XY0 (x : RegNo) (y : RegNo)
  /-- ANNN, `LD I, nnn`: load the index register (R150) -/
  | opANNN (nnn : Addr)
  /-- BNNN, `JP V0, nnn`: jump to V0 plus address (R151) -/
  | opBNNN (nnn : Addr)
  /-- CXNN, `RND Vx, nn`: random byte masked (R152) -/
  | opCXNN (x : RegNo) (nn : Byte)
  /-- DXYN, `DRW Vx, Vy, n`: draw an N-row sprite at (VX, VY) (R160) -/
  | opDXYN (x : RegNo) (y : RegNo) (n : Fin 16)
  /-- EX9E, `SKP Vx`: skip if key pressed (R170) -/
  | opEX9E (x : RegNo)
  /-- EXA1, `SKNP Vx`: skip if key not pressed (R171) -/
  | opEXA1 (x : RegNo)
  /-- FX07, `LD Vx, DT`: read the delay timer (R180) -/
  | opFX07 (x : RegNo)
  /-- FX0A, `LD Vx, K`: wait for a key (R182) -/
  | opFX0A (x : RegNo)
  /-- FX15, `LD DT, Vx`: set the delay timer (R183) -/
  | opFX15 (x : RegNo)
  /-- FX18, `LD ST, Vx`: set the sound timer (R184) -/
  | opFX18 (x : RegNo)
  /-- FX1E, `ADD I, Vx`: add register to index (R185) -/
  | opFX1E (x : RegNo)
  /-- FX29, `LD F, Vx`: point I at a font glyph (R186) -/
  | opFX29 (x : RegNo)
  /-- FX33, `LD B, Vx`: store the three decimal digits of VX (R187) -/
  | opFX33 (x : RegNo)
  /-- FX55, `LD [I], Vx`: store V0 to VX (R188) -/
  | opFX55 (x : RegNo)
  /-- FX65, `LD Vx, [I]`: load V0 to VX (R189) -/
  | opFX65 (x : RegNo)
  deriving DecidableEq, Repr

/-- The pattern that names the instruction, as spec/opcode_table.json spells it (R74). -/
def Instr.mnemonic : Instr → String
  | .op00E0 => "00E0"
  | .op00EE => "00EE"
  | .op00FE => "00FE"
  | .op00FF => "00FF"
  | .op1NNN _ => "1NNN"
  | .op2NNN _ => "2NNN"
  | .op3XNN _ _ => "3XNN"
  | .op4XNN _ _ => "4XNN"
  | .op5XY0 _ _ => "5XY0"
  | .op6XNN _ _ => "6XNN"
  | .op7XNN _ _ => "7XNN"
  | .op8XY0 _ _ => "8XY0"
  | .op8XY1 _ _ => "8XY1"
  | .op8XY2 _ _ => "8XY2"
  | .op8XY3 _ _ => "8XY3"
  | .op8XY4 _ _ => "8XY4"
  | .op8XY5 _ _ => "8XY5"
  | .op8XY6 _ _ => "8XY6"
  | .op8XY7 _ _ => "8XY7"
  | .op8XYE _ _ => "8XYE"
  | .op9XY0 _ _ => "9XY0"
  | .opANNN _ => "ANNN"
  | .opBNNN _ => "BNNN"
  | .opCXNN _ _ => "CXNN"
  | .opDXYN _ _ _ => "DXYN"
  | .opEX9E _ => "EX9E"
  | .opEXA1 _ => "EXA1"
  | .opFX07 _ => "FX07"
  | .opFX0A _ => "FX0A"
  | .opFX15 _ => "FX15"
  | .opFX18 _ => "FX18"
  | .opFX1E _ => "FX1E"
  | .opFX29 _ => "FX29"
  | .opFX33 _ => "FX33"
  | .opFX55 _ => "FX55"
  | .opFX65 _ => "FX65"

end Sys2Proof
end

