-- ==== Sys2Proof/Machine/State.lean ====
section
/-! DEFINITION. The state of the machine (spec/10_state.md R20 to R43), as plain data, and the state after reset
(spec/70_reset_and_hazards.md R240). The elements of R20 come first; the fields after them are the model's own: the
record of the last cycle's output pulses, the configuration, the host's script and the draw counter (log entries 1, 2, 4). -/

namespace Sys2Proof.Machine

/-- FAULT, the fault latch (R35, R200). -/
inductive FaultCode where
  | none
  | stackOverflow
  | stackUnderflow
  deriving DecidableEq, Repr

/-- What the host may do between two cycles (spec/00_scope.md R11, R12). Reading the framebuffer, EXT and the outputs are
host moves too; they change no state and are functions of the state (Machine/HostPort.lean). -/
inductive HostMove where
  /-- the reset operation (R240) -/
  | reset
  /-- `load_program(bytes)` (R247) -/
  | loadProgram (image : List Byte)
  /-- `key_wr(k, b)` (R227) -/
  | keyWr (k : KeyNo) (b : Bool)
  /-- `frame_query` (R229) -/
  | frameQuery
  deriving DecidableEq, Repr

/-- One entry of the host's script: a move, or the call of the next cycle with the inputs it samples (R11, R70). -/
inductive HostEvent where
  | move (m : HostMove)
  | cycle (tick : Bool) (rnd : Byte)
  deriving DecidableEq, Repr

/-- MEM as the bytes that differ from what an unlisted address reads as, by strictly rising address (R38; `Memory.wf`). -/
abbrev Memory := List Host.Cell

/-- FB: 64 rows of 128 one-bit cells; cell (x, y) is bit x of row y (R39). -/
abbrev FrameBuffer := Vector (BitVec 128) 64

/-- The state. Every element of R20, then the model's own fields. -/
structure State where
  /-- V0 to VF (R21); VF is the flag register (R26) -/
  v      : Vector Byte 16
  /-- PC (R23) -/
  pc     : Word
  /-- I, the index register (R27) -/
  i      : Word
  /-- SP: the number of return addresses on the stack, 0 to 16 (R28) -/
  sp     : Fin 17
  /-- STACK[0] to STACK[15] (R29) -/
  stack  : Vector Word 16
  /-- DT, the delay timer (R30) -/
  dt     : Byte
  /-- ST, the sound timer (R31) -/
  st     : Byte
  /-- EXT: false classic, true extended (R32) -/
  ext    : Bool
  /-- DIRTY, draw requested (R33) -/
  dirty  : Bool
  /-- OPCODE, the word of the last cycle that was not halted (R34) -/
  opcode : Word
  /-- FAULT; the core is halted while it is not `none` (R35) -/
  fault  : FaultCode
  /-- KEY[0] to KEY[15], true = pressed (R37) -/
  key    : Vector Bool 16
  /-- MEM (R38) -/
  mem    : Memory
  /-- FB (R39) -/
  fb     : FrameBuffer
  /-- model's own: `beep` was asserted in the last cycle (R225, R43) -/
  beep   : Bool
  /-- model's own: the word `diag` was asserted with in the last cycle, if it was (R206, R43) -/
  diag   : Option Word
  /-- model's own: the parameters of R6, which no step changes (R43) -/
  cfg    : Config
  /-- model's own: what the host does next, oldest first; empty means the reference environment (R11, R223) -/
  host   : List HostEvent
  /-- model's own: how many free draws have been taken (R231) -/
  draws  : Nat
  /-- model's own: load_program failed and nothing has reset the machine since (R207, R247) -/
  loadFailed : Bool
  deriving DecidableEq, Repr

/-- Why a step has no next state because the machine stopped. There is none: a cycle always completes (R70); the two
faults of R200 are latched in FAULT and leave a next state, the halted one (R203, R204). -/
inductive Fault : Type
  deriving DecidableEq, Repr

/-- Why a step is given no meaning. -/
inductive Refusal where
  /-- raised by `exec` for an instruction without a meaning; no arm is left that raises it (safe) -/
  | notModelled (mnemonic : String)
  /-- raised by a cycle called after load_program failed with CapacityError and before a reset: the machine state is
  unspecified (R247; U2, whose treatment is `refuse`) (safe) -/
  | afterFailedLoad
  deriving DecidableEq, Repr

/-- The state after Reset() (R240) with the parameters at their defaults (R6): every element of R20 at its reset value;
memory lists nothing, so it reads as FONT and zeros; nothing scripted. -/
def State.reset : State where
  v := Vector.replicate 16 0x00#8
  pc := 0x0200#16
  i := 0x0000#16
  sp := 0
  stack := Vector.replicate 16 0x0000#16
  dt := 0x00#8
  st := 0x00#8
  ext := false
  dirty := true
  opcode := 0x0000#16
  fault := .none
  key := Vector.replicate 16 false
  mem := []
  fb := Vector.replicate 64 0#128
  beep := false
  diag := none
  cfg := defaultConfig
  host := []
  draws := 0
  loadFailed := false

end Sys2Proof.Machine
end

