-- ==== Sys2Proof/Machine/Operands.lean ====
section
/-! DEFINITION. Operand forms: registers, effective addresses, the keypad, the active grid, and the inputs of the cycle
(spec/10_state.md R21, R37, R39; spec/20_memory.md R54; spec/47_family_f.md R192). -/

namespace Sys2Proof.Machine

/-- V[r] (R21). -/
def State.reg (s : State) (r : RegNo) : Byte := s.v[r]

/-- VF = V[0xF] (R21, R26). -/
def regVF : RegNo := 0xF

/-- The address of the byte at offset `off` from a 16-bit quantity: reduced modulo 4096 where it is used (R54, R192). -/
def effAddr (base : Word) (off : Nat) : Nat := (base.toNat + off) % memSize

/-- The key that V[X] selects: its low four bits (R172). -/
def keyNo (b : Byte) : KeyNo := (b.extractLsb' 0 4).toFin

/-- `FX29`: five bytes to a glyph, V[X] taken as it is (R186). -/
def glyphAddr (b : Byte) : Word := zextByte b * 5#16

/-- The three decimal digits of a byte, hundreds first (R187). -/
def bcdDigits (b : Byte) : List Byte :=
  [BitVec.ofNat 8 (b.toNat / 100), BitVec.ofNat 8 (b.toNat / 10 % 10), BitVec.ofNat 8 (b.toNat % 10)]

/-- P = the set of pressed keys, in ascending order (R182). -/
def pressedKeys (key : Vector Bool 16) : List KeyNo := (List.finRange 16).filter fun k => key[k]

/-- The key FX0A reports, none when no key is down: max(P), or min(P) under KEY_PRIORITY = lowest (R182, R190). -/
def reportedKey (p : KeyPriority) (key : Vector Bool 16) : Option KeyNo :=
  match p with
  | .highest => (pressedKeys key).getLast?
  | .lowest => (pressedKeys key).head?

/-- W of the active grid (R39). -/
def gridW (ext : Bool) : Nat := if ext then 128 else 64
/-- H of the active grid (R39). -/
def gridH (ext : Bool) : Nat := if ext then 64 else 32

/-- A cell of FB: column and row (R39). -/
structure Pixel where
  x : Fin 128
  y : Fin 64
  deriving DecidableEq, Repr

/-- `Cell(x, y, W, H)` (R162). The coordinates are below W and H, hence inside FB: the two reductions that make them
numbers of their types change nothing. -/
def cellOf (wrap : DrawWrap) (ext : Bool) (x y : Nat) : Pixel :=
  match wrap with
  | .linear =>
    let l := (x + y * gridW ext) % (gridW ext * gridH ext)
    { x := Fin.ofNat 128 (l % gridW ext), y := Fin.ofNat 64 (l / gridW ext) }
  | .perAxis => { x := Fin.ofNat 128 (x % gridW ext), y := Fin.ofNat 64 (y % gridH ext) }

/-- The columns c of a sprite row whose bit is 1, from the left: bit 7 is column 0 (R161). -/
def rowColumns (b : Byte) : List Nat := (List.range 8).filter fun c => b.getLsbD (7 - c)

/-- The cells the 1 bits of a sprite address, row by row from the top, each row from the left (R160, R161). -/
def spriteCells (wrap : DrawWrap) (ext : Bool) (x0 y0 : Nat) (rows : List Byte) : List Pixel :=
  rows.zipIdx.flatMap fun (b, r) => (rowColumns b).map fun c => cellOf wrap ext (x0 + c) (y0 + r)

/-- `tick` of the cycle the core is about to run: what the host's script says, true without a script (R6, R223; D3). -/
def State.tickIn (s : State) : Bool :=
  match s.host with
  | .cycle tick _ :: _ => tick
  | _ => true

/-- `rnd` of the cycle the core is about to run: what the host's script says, a free draw without a script (R231). -/
def State.rndIn (s : State) : Byte :=
  match s.host with
  | .cycle _ rnd :: _ => rnd
  | _ => Config.freeRnd s.draws

end Sys2Proof.Machine
end

