-- ==== Sys2Proof/Machine/Flags.lean ====
section
/-! DEFINITION. The flag computations: each gives the Boolean that VF receives as 0x00 or 0x01
(spec/10_state.md R26; spec/43_alu_8xyn.md R136 to R143; spec/47_family_f.md R185). Each is computed exactly, over the
natural numbers, and compared. -/

namespace Sys2Proof.Machine

/-- The 8-bit value a flag write stores (R26). -/
def flagByte (f : Bool) : Byte := if f then 0x01#8 else 0x00#8

/-- 8XY4: the unbounded sum exceeds 255 (R136). -/
def carryOut (a b : Byte) : Bool := decide (a.toNat + b.toNat > 255)

/-- 8XY5 and 8XY7: no borrow, that is minuend >= subtrahend (R137, R138). -/
def noBorrow (minuend subtrahend : Byte) : Bool := decide (minuend.toNat ≥ subtrahend.toNat)

/-- 8XY6: the bit shifted out, bit 0 (R139). -/
def bit0 (a : Byte) : Bool := a.getLsbD 0

/-- 8XYE: the bit shifted out, bit 7 (R141). -/
def bit7 (a : Byte) : Bool := a.getLsbD 7

/-- FX1E: the unbounded sum exceeds 0x0FFF (R185). -/
def indexOverflow (i : Word) (b : Byte) : Bool := decide (i.toNat + b.toNat > 0x0FFF)

end Sys2Proof.Machine
end

