-- ==== Sys2Proof/Machine/Ops.lean ====
section
/-! DEFINITION. The named operations over memory, the framebuffer, the registers and the stack, and raising a fault
(spec/00_scope.md R9; spec/20_memory.md; spec/10_state.md R28, R29; spec/60_exceptions.md R203). -/

namespace Sys2Proof.Machine

/-! ### Memory -/

/-- What an address nothing is listed for reads as: the contents after reset, FONT and then zeros (R38, R40, R240). -/
def Memory.background (font : Vector Byte 80) (a : Nat) : Byte := if h : a < 80 then font[a] else 0x00#8

/-- The byte listed for an address. -/
def Memory.lookup : Memory → Nat → Option Byte
  | [], _ => none
  | (k, b) :: rest, a => if k = a then some b else Memory.lookup rest a

/-- List a byte at its place, instead of the one listed there. -/
def Memory.insert : Memory → Nat → Byte → Memory
  | [], a, b => [(a, b)]
  | (k, c) :: rest, a, b =>
    if a < k then (a, b) :: (k, c) :: rest
    else if a = k then (a, b) :: rest
    else (k, c) :: Memory.insert rest a b

/-- List nothing for an address. -/
def Memory.erase (m : Memory) (a : Nat) : Memory := m.filter fun c => c.1 ≠ a

/-- MEM[a]. -/
def Memory.read (font : Vector Byte 80) (m : Memory) (a : Nat) : Byte :=
  (Memory.lookup m a).getD (Memory.background font a)

/-- MEM[a] <- b, keeping the canonical form: a byte equal to the background is not listed. -/
def Memory.write (font : Vector Byte 80) (m : Memory) (a : Nat) (b : Byte) : Memory :=
  if b = Memory.background font a then Memory.erase m a else Memory.insert m a b

/-- The canonical form from address `lo` up: strictly rising addresses below 4096, no entry equal to the background. -/
def Memory.wfFrom (font : Vector Byte 80) : Nat → Memory → Bool
  | _, [] => true
  | lo, (k, b) :: rest =>
    decide (lo ≤ k) && decide (k < memSize) && decide (b ≠ Memory.background font k) && Memory.wfFrom font (k + 1) rest

/-- The canonical form: equal memories are equal lists. -/
def Memory.wf (font : Vector Byte 80) (m : Memory) : Bool := Memory.wfFrom font 0 m

/-- The byte MEM[a] of a state. -/
def State.byteAt (s : State) (a : Nat) : Byte := Memory.read s.cfg.font s.mem a

/-- Replace MEM. -/
def State.setMem (s : State) (m : Memory) : State := { s with mem := m }

/-- `MemRead(base + off, 1)`: MEM[(base + off) mod 4096] (R9, R54). -/
def State.memRead (s : State) (base : Word) (off : Nat) : Byte := s.byteAt (effAddr base off)

/-- `MemWrite(base + off, 1, b)`: MEM[(base + off) mod 4096] <- b (R9, R54). No address is protected (R57). -/
def State.memWrite (s : State) (base : Word) (off : Nat) (b : Byte) : State :=
  s.setMem (Memory.write s.cfg.font s.mem (effAddr base off) b)

/-- The bytes of a list to consecutive addresses from `base + off` up, in ascending order (R51, R53). -/
def State.memWriteList (s : State) (base : Word) (off : Nat) : List Byte → State
  | [] => s
  | b :: rest => (s.memWrite base off b).memWriteList base (off + 1) rest

/-- `count` bytes from consecutive addresses from `base` up, in ascending order (R51, R53). -/
def State.memReadList (s : State) (base : Word) (count : Nat) : List Byte :=
  (List.range count).map fun k => s.memRead base k

/-! ### Registers -/

/-- V[r] <- b (R21). -/
def State.setReg (s : State) (r : RegNo) (b : Byte) : State := { s with v := s.v.set r b }

/-- VF <- 0x01 or 0x00 (R26). -/
def State.setFlag (s : State) (f : Bool) : State := s.setReg regVF (flagByte f)

/-- The result to V[X] first and the flag to VF second, so that the flag wins when X = 0xF (R131). -/
def State.setResultFlag (s : State) (x : RegNo) (b : Byte) (f : Bool) : State := (s.setReg x b).setFlag f

/-- V[r], V[r + 1], ... <- the bytes of a list; register numbers past VF do not occur (R189). -/
def State.setRegsFrom (s : State) (r : Nat) : List Byte → State
  | [] => s
  | b :: rest => (s.setReg (Fin.ofNat 16 r) b).setRegsFrom (r + 1) rest

/-- PC <- p. -/
def State.setPc (s : State) (p : Word) : State := { s with pc := p }

/-- PC <- (pc0 + n) mod 65536 (R24). -/
def State.advance (s : State) (n : Nat) : State := s.setPc (s.pc + BitVec.ofNat 16 n)

/-- Fall through: PC advanced by 2 (R13, R24). -/
def State.fallThrough (s : State) : State := s.advance 2

/-- PC advanced by 4 when the condition holds and by 2 when it does not (R24, R112). -/
def State.skipIf (s : State) (c : Bool) : State := s.advance (if c then 4 else 2)

/-- I <- w (R27). -/
def State.setI (s : State) (w : Word) : State := { s with i := w }

/-- DT <- b (R30). -/
def State.setDt (s : State) (b : Byte) : State := { s with dt := b }

/-- ST <- b (R31). -/
def State.setSt (s : State) (b : Byte) : State := { s with st := b }

/-- EXT <- e (R32). -/
def State.setExt (s : State) (e : Bool) : State := { s with ext := e }

/-- DIRTY <- d (R33). -/
def State.setDirty (s : State) (d : Bool) : State := { s with dirty := d }

/-- OPCODE <- w (R34). -/
def State.setOpcode (s : State) (w : Word) : State := { s with opcode := w }

/-- KEY[k] <- b (R37, R227). -/
def State.setKey (s : State) (k : KeyNo) (b : Bool) : State := { s with key := s.key.set k b }

/-- The record of the output pulses `beep` and `diag` (R43). -/
def State.setOutputs (s : State) (beep : Bool) (diag : Option Word) : State := { s with beep := beep, diag := diag }

/-- The host's script, and the number of free draws taken. -/
def State.setHost (s : State) (host : List HostEvent) (draws : Nat) : State := { s with host := host, draws := draws }

/-- Whether load_program has failed (R207). -/
def State.setLoadFailed (s : State) (b : Bool) : State := { s with loadFailed := b }

/-! ### The stack -/

/-- STACK and SP together. -/
def State.setStack (s : State) (stack : Vector Word 16) (sp : Fin 17) : State := { s with stack := stack, sp := sp }

/-- Push: STACK[SP] <- w, then SP <- SP + 1; none when SP = 16 (R29, R201). -/
def State.push (s : State) (w : Word) : Option State :=
  if h : s.sp.val < 16 then some (s.setStack (s.stack.set s.sp.val w h) ⟨s.sp.val + 1, by omega⟩) else none

/-- Pop: SP <- SP - 1, then the value of STACK[SP], which keeps it; none when SP = 0 (R29, R202). -/
def State.pop (s : State) : Option (Word × State) :=
  if h : s.sp.val = 0 then none
  else
    have := s.sp.isLt
    some (s.stack[s.sp.val - 1], s.setStack s.stack ⟨s.sp.val - 1, by omega⟩)

/-! ### Faults -/

/-- FAULT <- c (R35). -/
def State.setFault (s : State) (c : FaultCode) : State := { s with fault := c }

/-- `raise F(pc0, w)`: FAULT <- the code of F and nothing else; OPCODE already holds w and PC keeps pc0 (R203). The cycle
sees the latch and ends without a tick (Machine/Cycle.lean). There is no return from it but reset (R204). -/
def State.raise (s : State) (c : FaultCode) : State := s.setFault c

/-! ### The framebuffer -/

/-- FB[y][x] (R39). -/
def pixelOf (fb : FrameBuffer) (p : Pixel) : Bool := fb[p.y].getLsbD p.x.val

/-- FB[y][x] <- FB[y][x] XOR 1 (R160). -/
def flipPixel (fb : FrameBuffer) (p : Pixel) : FrameBuffer := fb.set p.y (fb[p.y] ^^^ (1#128 <<< p.x.val))

/-- All 8192 cells 0 (R100). -/
def clearedFrame : FrameBuffer := Vector.replicate 64 0#128

/-- Replace FB. -/
def State.setFb (s : State) (fb : FrameBuffer) : State := { s with fb := fb }

/-- Apply the 1 bits of a sprite one after the other: a cell that holds 1 just before its bit is a collision, and every
addressed cell toggles; an early collision does not stop the drawing (R160, R163). -/
def blit (fb : FrameBuffer) (cells : List Pixel) : FrameBuffer × Bool :=
  cells.foldl (fun (f, hit) p => (flipPixel f p, hit || pixelOf f p)) (fb, false)

end Sys2Proof.Machine
end

