-- ==== Sys2Proof/Machine/Alu.lean ====
section
/-! DEFINITION. Family 8, the register-register ALU (spec/43_alu_8xyn.md). Both operands are read before any write (R130); a result is
written before its flag (R131). -/

namespace Sys2Proof.Machine

/-- 8XY0: V[X] <- V[Y] (R132). -/
def exec8XY0 (x y : RegNo) (s : State) : Host.Outcome State Fault Refusal :=
  .next (s.setReg x (s.reg y)).fallThrough

/-- 8XY1: V[X] <- V[X] OR V[Y] (R133). -/
def exec8XY1 (x y : RegNo) (s : State) : Host.Outcome State Fault Refusal :=
  .next (s.setReg x (s.reg x ||| s.reg y)).fallThrough

/-- 8XY2: V[X] <- V[X] AND V[Y] (R134). -/
def exec8XY2 (x y : RegNo) (s : State) : Host.Outcome State Fault Refusal :=
  .next (s.setReg x (s.reg x &&& s.reg y)).fallThrough

/-- 8XY3: V[X] <- V[X] XOR V[Y] (R135). -/
def exec8XY3 (x y : RegNo) (s : State) : Host.Outcome State Fault Refusal :=
  .next (s.setReg x (s.reg x ^^^ s.reg y)).fallThrough

/-- 8XY4: V[X] <- the sum mod 256, VF <- carry (R136). -/
def exec8XY4 (x y : RegNo) (s : State) : Host.Outcome State Fault Refusal :=
  .next (s.setResultFlag x (s.reg x + s.reg y) (carryOut (s.reg x) (s.reg y))).fallThrough

/-- 8XY5: V[X] <- (V[X] - V[Y]) mod 256, VF <- not borrow (R137). -/
def exec8XY5 (x y : RegNo) (s : State) : Host.Outcome State Fault Refusal :=
  .next (s.setResultFlag x (s.reg x - s.reg y) (noBorrow (s.reg x) (s.reg y))).fallThrough

/-- 8XY6: V[X] <- V[X] div 2, VF <- the old bit 0; V[Y] is not read (R139, R140). -/
def exec8XY6 (x _y : RegNo) (s : State) : Host.Outcome State Fault Refusal :=
  .next (s.setResultFlag x (s.reg x >>> 1) (bit0 (s.reg x))).fallThrough

/-- 8XY7: V[X] <- (V[Y] - V[X]) mod 256, VF <- not borrow (R138). -/
def exec8XY7 (x y : RegNo) (s : State) : Host.Outcome State Fault Refusal :=
  .next (s.setResultFlag x (s.reg y - s.reg x) (noBorrow (s.reg y) (s.reg x))).fallThrough

/-- 8XYE: V[X] <- (V[X] * 2) mod 256, VF <- the old bit 7; V[Y] is not read (R140, R141). -/
def exec8XYE (x _y : RegNo) (s : State) : Host.Outcome State Fault Refusal :=
  .next (s.setResultFlag x (s.reg x <<< 1) (bit7 (s.reg x))).fallThrough

end Sys2Proof.Machine
end

