-- ==== Sys2Proof/Machine/Draw.lean ====
section
/-! DEFINITION. The sprite blit DXYN (spec/45_draw_dxyn.md). -/

namespace Sys2Proof.Machine

/-- The cells DXYN's 1 bits address in a state: V[X], V[Y] and I as they are before any write, N rows from I up, in the
active grid (R160 to R162). -/
def drawnCells (s : State) (x y : RegNo) (n : Fin 16) : List Pixel :=
  spriteCells s.cfg.drawWrap s.ext (s.reg x).toNat (s.reg y).toNat (s.memReadList s.i n.val)

/-- DXYN: XOR the sprite into FB, VF <- collision, DIRTY <- 1; I is not changed (R160 to R165). -/
def execDXYN (x y : RegNo) (n : Fin 16) (s : State) : Host.Outcome State Fault Refusal :=
  let drawn := blit s.fb (drawnCells s x y n)
  .next (((s.setFb drawn.1).setFlag drawn.2).setDirty true).fallThrough

end Sys2Proof.Machine
end

