-- ==== Sys2Proof/Machine/Family0.lean ====
section
/-! DEFINITION. Family 0: clear screen, return, mode switch (spec/40_family0_screen_return_mode.md). -/

namespace Sys2Proof.Machine

/-- 00E0: every cell of FB 0 whatever EXT is, and DIRTY (R100). -/
def exec00E0 (s : State) : Host.Outcome State Fault Refusal :=
  .next ((s.setFb clearedFrame).setDirty true).fallThrough

/-- 00EE: pop, and PC <- the popped address + 2; StackUnderflow when SP = 0 (R101, R202). -/
def exec00EE (s : State) : Host.Outcome State Fault Refusal :=
  match s.pop with
  | some (ra, s') => .next (s'.setPc (ra + 2#16))
  | none => .next (s.raise .stackUnderflow)

/-- 00FE: EXT <- 0; FB and DIRTY are not touched (R102). -/
def exec00FE (s : State) : Host.Outcome State Fault Refusal :=
  .next (s.setExt false).fallThrough

/-- 00FF: EXT <- 1; FB and DIRTY are not touched (R103). -/
def exec00FF (s : State) : Host.Outcome State Fault Refusal :=
  .next (s.setExt true).fallThrough

end Sys2Proof.Machine
end

