-- ==== Sys2Proof/Machine/FamilyF.lean ====
section
/-! DEFINITION. Family F: timers, key wait, index arithmetic, BCD, block store and load (spec/47_family_f.md). -/

namespace Sys2Proof.Machine

/-- FX07: V[X] <- DT, before this cycle's tick (R180). -/
def execFX07 (x : RegNo) (s : State) : Host.Outcome State Fault Refusal :=
  .next (s.setReg x s.dt).fallThrough

/-- FX0A: V[X] <- the reported key, or nothing at all when no key is down, so that the same instruction is fetched again
(R182, R190). -/
def execFX0A (x : RegNo) (s : State) : Host.Outcome State Fault Refusal :=
  match reportedKey s.cfg.keyPriority s.key with
  | some k => .next (s.setReg x (BitVec.ofNat 8 k.val)).fallThrough
  | none => .next s

/-- FX15: DT <- V[X] (R183). -/
def execFX15 (x : RegNo) (s : State) : Host.Outcome State Fault Refusal :=
  .next (s.setDt (s.reg x)).fallThrough

/-- FX18: ST <- V[X] (R184). -/
def execFX18 (x : RegNo) (s : State) : Host.Outcome State Fault Refusal :=
  .next (s.setSt (s.reg x)).fallThrough

/-- FX1E: I <- (I + V[X]) mod 65536, VF <- whether the unbounded sum exceeds 0x0FFF (R185). -/
def execFX1E (x : RegNo) (s : State) : Host.Outcome State Fault Refusal :=
  .next ((s.setI (s.i + zextByte (s.reg x))).setFlag (indexOverflow s.i (s.reg x))).fallThrough

/-- FX29: I <- V[X] * 5 (R186). -/
def execFX29 (x : RegNo) (s : State) : Host.Outcome State Fault Refusal :=
  .next (s.setI (glyphAddr (s.reg x))).fallThrough

/-- FX33: the three decimal digits of V[X] to I, I + 1, I + 2; I is not changed (R187). -/
def execFX33 (x : RegNo) (s : State) : Host.Outcome State Fault Refusal :=
  .next (s.memWriteList s.i 0 (bcdDigits (s.reg x))).fallThrough

/-- FX55: V[0] to V[X] to memory from I up, then I <- I + X + 1; it does not also perform FX65 (R188, R191). -/
def execFX55 (x : RegNo) (s : State) : Host.Outcome State Fault Refusal :=
  let regs := s.v.toList.take (x.val + 1)
  .next ((s.memWriteList s.i 0 regs).setI (s.i + BitVec.ofNat 16 (x.val + 1))).fallThrough

/-- FX65: V[0] to V[X] from memory from I up, then I <- I + X + 1 (R189, R191). -/
def execFX65 (x : RegNo) (s : State) : Host.Outcome State Fault Refusal :=
  let bytes := s.memReadList s.i (x.val + 1)
  .next ((s.setRegsFrom 0 bytes).setI (s.i + BitVec.ofNat 16 (x.val + 1))).fallThrough

end Sys2Proof.Machine
end

