-- ==== Sys2Proof/Machine/Immediate.lean ====
section
/-! DEFINITION. Register-immediate load and add (spec/42_immediate_6_7.md). -/

namespace Sys2Proof.Machine

/-- 6XNN: V[X] <- NN (R120). -/
def exec6XNN (x : RegNo) (nn : Byte) (s : State) : Host.Outcome State Fault Refusal :=
  .next (s.setReg x nn).fallThrough

/-- 7XNN: V[X] <- (V[X] + NN) mod 256, and no flag (R121). -/
def exec7XNN (x : RegNo) (nn : Byte) (s : State) : Host.Outcome State Fault Refusal :=
  .next (s.setReg x (s.reg x + nn)).fallThrough

end Sys2Proof.Machine
end

