-- ==== Sys2Proof/Machine/Index.lean ====
section
/-! DEFINITION. Load index, indexed jump, random (spec/44_index_jump_random_abc.md). -/

namespace Sys2Proof.Machine

/-- ANNN: I <- NNN (R150). -/
def execANNN (nnn : Addr) (s : State) : Host.Outcome State Fault Refusal :=
  .next (s.setI (zextAddr nnn)).fallThrough

/-- BNNN: PC <- V[0] + NNN, a 16-bit sum that cannot wrap (R151). -/
def execBNNN (nnn : Addr) (s : State) : Host.Outcome State Fault Refusal :=
  .next (s.setPc (zextByte (s.reg 0) + zextAddr nnn))

/-- CXNN: V[X] <- rnd AND NN, `rnd` the random byte of this cycle (R152, R231). -/
def execCXNN (x : RegNo) (nn : Byte) (s : State) : Host.Outcome State Fault Refusal :=
  .next (s.setReg x (s.rndIn &&& nn)).fallThrough

end Sys2Proof.Machine
end

