-- ==== Sys2Proof/Machine/Jump.lean ====
section
/-! DEFINITION. Jump, call and the skips that compare registers (spec/41_jump_call_skip.md). -/

namespace Sys2Proof.Machine

/-- 1NNN: PC <- NNN (R110). -/
def exec1NNN (nnn : Addr) (s : State) : Host.Outcome State Fault Refusal :=
  .next (s.setPc (zextAddr nnn))

/-- 2NNN: push the address of this instruction, PC <- NNN; StackOverflow when SP = 16 (R111, R201). -/
def exec2NNN (nnn : Addr) (s : State) : Host.Outcome State Fault Refusal :=
  match s.push s.pc with
  | some s' => .next (s'.setPc (zextAddr nnn))
  | none => .next (s.raise .stackOverflow)

/-- 3XNN: skip when V[X] = NN (R112). -/
def exec3XNN (x : RegNo) (nn : Byte) (s : State) : Host.Outcome State Fault Refusal :=
  .next (s.skipIf (s.reg x == nn))

/-- 4XNN: skip when V[X] differs from NN (R113). -/
def exec4XNN (x : RegNo) (nn : Byte) (s : State) : Host.Outcome State Fault Refusal :=
  .next (s.skipIf (s.reg x != nn))

/-- 5XY0: skip when V[X] = V[Y] (R114). -/
def exec5XY0 (x y : RegNo) (s : State) : Host.Outcome State Fault Refusal :=
  .next (s.skipIf (s.reg x == s.reg y))

/-- 9XY0: skip when V[X] differs from V[Y] (R115). -/
def exec9XY0 (x y : RegNo) (s : State) : Host.Outcome State Fault Refusal :=
  .next (s.skipIf (s.reg x != s.reg y))

end Sys2Proof.Machine
end

