-- ==== Sys2Proof/Machine/Keys.lean ====
section
/-! DEFINITION. The key-conditional skips of family E (spec/46_keys_ex.md). -/

namespace Sys2Proof.Machine

/-- EX9E: skip when the key V[X] mod 16 is pressed (R170, R172). -/
def execEX9E (x : RegNo) (s : State) : Host.Outcome State Fault Refusal :=
  .next (s.skipIf s.key[keyNo (s.reg x)])

/-- EXA1: skip when the key V[X] mod 16 is not pressed (R171, R172). -/
def execEXA1 (x : RegNo) (s : State) : Host.Outcome State Fault Refusal :=
  .next (s.skipIf (!s.key[keyNo (s.reg x)]))

end Sys2Proof.Machine
end

