-- ==== Sys2Proof/WellFormed.lean ====
section
/-! DEFINITION. Well-formed instructions: every field's value fits the field (spec/30_encoding.md R72, R73).
The operand types of `Instr` already bound every operand, so the check holds of every term of `Instr`
(Sys2Proof/Laws/PerInstr.lean proves it, constructor by constructor). -/

namespace Sys2Proof

/-- One field of an instruction word: the value it is to hold and its width in bits (R72). -/
structure Field where
  value : Nat
  width : Nat
  deriving DecidableEq, Repr

/-- The check: the value is an unsigned number of the field's width (R7, R72). -/
def Field.fits (f : Field) : Bool := decide (f.value < 2 ^ f.width)

/-- A register number, or N of DXYN: a 4-bit field (R72). -/
def Field.nibble (k : Fin 16) : Field := { value := k.val, width := 4 }
/-- NN, an 8-bit field (R72). -/
def Field.low8 (b : Byte) : Field := { value := b.toNat, width := 8 }
/-- NNN, a 12-bit field (R72). -/
def Field.low12 (a : Addr) : Field := { value := a.toNat, width := 12 }

/-- The fields an instruction uses, high bits first, as its format fixes them (R73). -/
def Instr.fields : Instr → List Field
  | .op00E0 => []
  | .op00EE => []
  | .op00FE => []
  | .op00FF => []
  | .op1NNN nnn => [.low12 nnn]
  | .op2NNN nnn => [.low12 nnn]
  | .op3XNN x nn => [.nibble x, .low8 nn]
  | .op4XNN x nn => [.nibble x, .low8 nn]
  | .op5XY0 x y => [.nibble x, .nibble y]
  | .op6XNN x nn => [.nibble x, .low8 nn]
  | .op7XNN x nn => [.nibble x, .low8 nn]
  | .op8XY0 x y => [.nibble x, .nibble y]
  | .op8XY1 x y => [.nibble x, .nibble y]
  | .op8XY2 x y => [.nibble x, .nibble y]
  | .op8XY3 x y => [.nibble x, .nibble y]
  | .op8XY4 x y => [.nibble x, .nibble y]
  | .op8XY5 x y => [.nibble x, .nibble y]
  | .op8XY6 x y => [.nibble x, .nibble y]
  | .op8XY7 x y => [.nibble x, .nibble y]
  | .op8XYE x y => [.nibble x, .nibble y]
  | .op9XY0 x y => [.nibble x, .nibble y]
  | .opANNN nnn => [.low12 nnn]
  | .opBNNN nnn => [.low12 nnn]
  | .opCXNN x nn => [.nibble x, .low8 nn]
  | .opDXYN x y n => [.nibble x, .nibble y, .nibble n]
  | .opEX9E x => [.nibble x]
  | .opEXA1 x => [.nibble x]
  | .opFX07 x => [.nibble x]
  | .opFX0A x => [.nibble x]
  | .opFX15 x => [.nibble x]
  | .opFX18 x => [.nibble x]
  | .opFX1E x => [.nibble x]
  | .opFX29 x => [.nibble x]
  | .opFX33 x => [.nibble x]
  | .opFX55 x => [.nibble x]
  | .opFX65 x => [.nibble x]

/-- The instruction is well-formed: each of its fields fits (R72). -/
def Instr.wf (i : Instr) : Bool := i.fields.all Field.fits

end Sys2Proof
end

