-- ==== Sys2Proof/Decode.lean ====
section
/-! DEFINITION. The decoder, total on any word and any bytes, and the encoder (spec/30_encoding.md R72 to R87).
Two stages, as R76 to R79 lay them out: OP = w[15:12] first, then the low byte in families 0, E and F and the low nibble
in family 8. A word no case matches is rejected by name: it is the spec's Unknown, a diagnosed no-op (R80). -/

namespace Sys2Proof

/-- Why the decoder gives no instruction. -/
inductive Reject where
  /-- a word that R76 to R79 send to Unknown (R80, R81) -/
  | unknownOpcode (w : Word)
  /-- fewer than the two bytes of an instruction (R72) -/
  | truncated
  deriving DecidableEq, Repr

/-- OP = w[15:12] (R72). -/
def fieldOP (w : Word) : BitVec 4 := w.extractLsb' 12 4
/-- X = w[11:8] (R72). -/
def fieldX (w : Word) : RegNo := (w.extractLsb' 8 4).toFin
/-- Y = w[7:4] (R72). -/
def fieldY (w : Word) : RegNo := (w.extractLsb' 4 4).toFin
/-- N = w[3:0] (R72). -/
def fieldN (w : Word) : Fin 16 := (w.extractLsb' 0 4).toFin
/-- N = w[3:0] as the function code of family 8 (R73, R78). -/
def fieldFn (w : Word) : BitVec 4 := w.extractLsb' 0 4
/-- NN = w[7:0] (R72). -/
def fieldNN (w : Word) : Byte := w.extractLsb' 0 8
/-- NNN = w[11:0] (R72). -/
def fieldNNN (w : Word) : Addr := w.extractLsb' 0 12

/-- Family 0, secondary dispatch on the low byte; bits 11:8 are not examined (R77, R82). -/
def decodeFamily0 (w : Word) : Except Reject Instr :=
  match fieldNN w with
  | 0xE0#8 => .ok .op00E0
  | 0xEE#8 => .ok .op00EE
  | 0xFE#8 => .ok .op00FE
  | 0xFF#8 => .ok .op00FF
  | _ => .error (.unknownOpcode w)

/-- Family 8, secondary dispatch on the low nibble (R78). -/
def decodeFamily8 (w : Word) : Except Reject Instr :=
  match fieldFn w with
  | 0x0#4 => .ok (.op8XY0 (fieldX w) (fieldY w))
  | 0x1#4 => .ok (.op8XY1 (fieldX w) (fieldY w))
  | 0x2#4 => .ok (.op8XY2 (fieldX w) (fieldY w))
  | 0x3#4 => .ok (.op8XY3 (fieldX w) (fieldY w))
  | 0x4#4 => .ok (.op8XY4 (fieldX w) (fieldY w))
  | 0x5#4 => .ok (.op8XY5 (fieldX w) (fieldY w))
  | 0x6#4 => .ok (.op8XY6 (fieldX w) (fieldY w))
  | 0x7#4 => .ok (.op8XY7 (fieldX w) (fieldY w))
  | 0xE#4 => .ok (.op8XYE (fieldX w) (fieldY w))
  | _ => .error (.unknownOpcode w)

/-- Family E, secondary dispatch on the low byte (R79). -/
def decodeFamilyE (w : Word) : Except Reject Instr :=
  match fieldNN w with
  | 0x9E#8 => .ok (.opEX9E (fieldX w))
  | 0xA1#8 => .ok (.opEXA1 (fieldX w))
  | _ => .error (.unknownOpcode w)

/-- Family F, secondary dispatch on the low byte (R79). -/
def decodeFamilyF (w : Word) : Except Reject Instr :=
  match fieldNN w with
  | 0x07#8 => .ok (.opFX07 (fieldX w))
  | 0x0A#8 => .ok (.opFX0A (fieldX w))
  | 0x15#8 => .ok (.opFX15 (fieldX w))
  | 0x18#8 => .ok (.opFX18 (fieldX w))
  | 0x1E#8 => .ok (.opFX1E (fieldX w))
  | 0x29#8 => .ok (.opFX29 (fieldX w))
  | 0x33#8 => .ok (.opFX33 (fieldX w))
  | 0x55#8 => .ok (.opFX55 (fieldX w))
  | 0x65#8 => .ok (.opFX65 (fieldX w))
  | _ => .error (.unknownOpcode w)

/-- The decoder: primary dispatch on OP, every value of which has a row (R76). -/
def decode (w : Word) : Except Reject Instr :=
  match fieldOP w with
  | 0x0#4 => decodeFamily0 w
  | 0x1#4 => .ok (.op1NNN (fieldNNN w))
  | 0x2#4 => .ok (.op2NNN (fieldNNN w))
  | 0x3#4 => .ok (.op3XNN (fieldX w) (fieldNN w))
  | 0x4#4 => .ok (.op4XNN (fieldX w) (fieldNN w))
  | 0x5#4 => .ok (.op5XY0 (fieldX w) (fieldY w))
  | 0x6#4 => .ok (.op6XNN (fieldX w) (fieldNN w))
  | 0x7#4 => .ok (.op7XNN (fieldX w) (fieldNN w))
  | 0x8#4 => decodeFamily8 w
  | 0x9#4 => .ok (.op9XY0 (fieldX w) (fieldY w))
  | 0xA#4 => .ok (.opANNN (fieldNNN w))
  | 0xB#4 => .ok (.opBNNN (fieldNNN w))
  | 0xC#4 => .ok (.opCXNN (fieldX w) (fieldNN w))
  | 0xD#4 => .ok (.opDXYN (fieldX w) (fieldY w) (fieldN w))
  | 0xE#4 => decodeFamilyE w
  | _ => decodeFamilyF w -- OP = 0xF, the one value left

/-- The two bytes of an instruction, the high byte at the lower address, composed big-endian (R50). -/
def composeWord (hi lo : Byte) : Word := hi ++ lo

/-- The high byte of a word: the byte at the lower address (R50). -/
def highByte (w : Word) : Byte := w.extractLsb' 8 8
/-- The low byte of a word: the byte at the higher address (R50). -/
def lowByte (w : Word) : Byte := w.extractLsb' 0 8

/-- The decoder on bytes: the instruction at the front and the bytes after it, or why there is none (R72, R80). -/
def decodeBytes : List Byte → Except Reject (Instr × List Byte)
  | hi :: lo :: rest =>
    match decode (composeWord hi lo) with
    | .ok i => .ok (i, rest)
    | .error r => .error r
  | _ => .error .truncated

/-- A register number, or N, as the four bits of its field (R72). -/
def nibble (k : Fin 16) : BitVec 4 := BitVec.ofNat 4 k.val

/-- Format A-NNN (R73). -/
def wordNNN (op : BitVec 4) (nnn : Addr) : Word := op ++ nnn
/-- Format B-XNN, and D-XFN with the function code as NN (R73). -/
def wordXNN (op : BitVec 4) (x : RegNo) (nn : Byte) : Word := op ++ (nibble x ++ nn)
/-- Format C-XYN (R73). -/
def wordXYN (op : BitVec 4) (x y : RegNo) (n : Fin 16) : Word :=
  op ++ (nibble x ++ (nibble y ++ nibble n))
/-- Format E-FN with 0 in the ignored bits 11:8, as an assembler emits it (R73, R82). -/
def wordFN (fn : Byte) : Word := wordXNN 0x0#4 0 fn

/-- The word of an instruction, 0 in every bit the decoder ignores (R73, R76 to R79, R82). -/
def encode : Instr → Word
  | .op00E0 => wordFN 0xE0#8
  | .op00EE => wordFN 0xEE#8
  | .op00FE => wordFN 0xFE#8
  | .op00FF => wordFN 0xFF#8
  | .op1NNN nnn => wordNNN 0x1#4 nnn
  | .op2NNN nnn => wordNNN 0x2#4 nnn
  | .op3XNN x nn => wordXNN 0x3#4 x nn
  | .op4XNN x nn => wordXNN 0x4#4 x nn
  | .op5XY0 x y => wordXYN 0x5#4 x y 0x0
  | .op6XNN x nn => wordXNN 0x6#4 x nn
  | .op7XNN x nn => wordXNN 0x7#4 x nn
  | .op8XY0 x y => wordXYN 0x8#4 x y 0x0
  | .op8XY1 x y => wordXYN 0x8#4 x y 0x1
  | .op8XY2 x y => wordXYN 0x8#4 x y 0x2
  | .op8XY3 x y => wordXYN 0x8#4 x y 0x3
  | .op8XY4 x y => wordXYN 0x8#4 x y 0x4
  | .op8XY5 x y => wordXYN 0x8#4 x y 0x5
  | .op8XY6 x y => wordXYN 0x8#4 x y 0x6
  | .op8XY7 x y => wordXYN 0x8#4 x y 0x7
  | .op8XYE x y => wordXYN 0x8#4 x y 0xE
  | .op9XY0 x y => wordXYN 0x9#4 x y 0x0
  | .opANNN nnn => wordNNN 0xA#4 nnn
  | .opBNNN nnn => wordNNN 0xB#4 nnn
  | .opCXNN x nn => wordXNN 0xC#4 x nn
  | .opDXYN x y n => wordXYN 0xD#4 x y n
  | .opEX9E x => wordXNN 0xE#4 x 0x9E#8
  | .opEXA1 x => wordXNN 0xE#4 x 0xA1#8
  | .opFX07 x => wordXNN 0xF#4 x 0x07#8
  | .opFX0A x => wordXNN 0xF#4 x 0x0A#8
  | .opFX15 x => wordXNN 0xF#4 x 0x15#8
  | .opFX18 x => wordXNN 0xF#4 x 0x18#8
  | .opFX1E x => wordXNN 0xF#4 x 0x1E#8
  | .opFX29 x => wordXNN 0xF#4 x 0x29#8
  | .opFX33 x => wordXNN 0xF#4 x 0x33#8
  | .opFX55 x => wordXNN 0xF#4 x 0x55#8
  | .opFX65 x => wordXNN 0xF#4 x 0x65#8

/-- The two bytes of an instruction, in the order memory holds them (R50). -/
def encodeBytes (i : Instr) : List Byte := [highByte (encode i), lowByte (encode i)]

/-- One row of the opcode table: word `w` is that instruction exactly when `w AND mask = bits` (R74). -/
structure OpcodeRow where
  mnemonic : String
  bits     : Word
  mask     : Word
  deriving DecidableEq, Repr

/-- Word `w` matches the row (R74). -/
def OpcodeRow.selects (r : OpcodeRow) (w : Word) : Bool := w &&& r.mask == r.bits

/-- The rows of spec/opcode_table.json that family 0 and the words decided by OP alone give (R76, R77). -/
def opcodeTableOP : List OpcodeRow := [
  { mnemonic := "00E0", bits := 0x00E0#16, mask := 0xF0FF#16 },
  { mnemonic := "00EE", bits := 0x00EE#16, mask := 0xF0FF#16 },
  { mnemonic := "00FE", bits := 0x00FE#16, mask := 0xF0FF#16 },
  { mnemonic := "00FF", bits := 0x00FF#16, mask := 0xF0FF#16 },
  { mnemonic := "1NNN", bits := 0x1000#16, mask := 0xF000#16 },
  { mnemonic := "2NNN", bits := 0x2000#16, mask := 0xF000#16 },
  { mnemonic := "3XNN", bits := 0x3000#16, mask := 0xF000#16 },
  { mnemonic := "4XNN", bits := 0x4000#16, mask := 0xF000#16 },
  { mnemonic := "5XY0", bits := 0x5000#16, mask := 0xF000#16 },
  { mnemonic := "6XNN", bits := 0x6000#16, mask := 0xF000#16 },
  { mnemonic := "7XNN", bits := 0x7000#16, mask := 0xF000#16 },
  { mnemonic := "9XY0", bits := 0x9000#16, mask := 0xF000#16 },
  { mnemonic := "ANNN", bits := 0xA000#16, mask := 0xF000#16 },
  { mnemonic := "BNNN", bits := 0xB000#16, mask := 0xF000#16 },
  { mnemonic := "CXNN", bits := 0xC000#16, mask := 0xF000#16 },
  { mnemonic := "DXYN", bits := 0xD000#16, mask := 0xF000#16 } ]

/-- The rows of family 8 (R78). -/
def opcodeTable8 : List OpcodeRow := [
  { mnemonic := "8XY0", bits := 0x8000#16, mask := 0xF00F#16 },
  { mnemonic := "8XY1", bits := 0x8001#16, mask := 0xF00F#16 },
  { mnemonic := "8XY2", bits := 0x8002#16, mask := 0xF00F#16 },
  { mnemonic := "8XY3", bits := 0x8003#16, mask := 0xF00F#16 },
  { mnemonic := "8XY4", bits := 0x8004#16, mask := 0xF00F#16 },
  { mnemonic := "8XY5", bits := 0x8005#16, mask := 0xF00F#16 },
  { mnemonic := "8XY6", bits := 0x8006#16, mask := 0xF00F#16 },
  { mnemonic := "8XY7", bits := 0x8007#16, mask := 0xF00F#16 },
  { mnemonic := "8XYE", bits := 0x800E#16, mask := 0xF00F#16 } ]

/-- The rows of families E and F (R79). -/
def opcodeTableEF : List OpcodeRow := [
  { mnemonic := "EX9E", bits := 0xE09E#16, mask := 0xF0FF#16 },
  { mnemonic := "EXA1", bits := 0xE0A1#16, mask := 0xF0FF#16 },
  { mnemonic := "FX07", bits := 0xF007#16, mask := 0xF0FF#16 },
  { mnemonic := "FX0A", bits := 0xF00A#16, mask := 0xF0FF#16 },
  { mnemonic := "FX15", bits := 0xF015#16, mask := 0xF0FF#16 },
  { mnemonic := "FX18", bits := 0xF018#16, mask := 0xF0FF#16 },
  { mnemonic := "FX1E", bits := 0xF01E#16, mask := 0xF0FF#16 },
  { mnemonic := "FX29", bits := 0xF029#16, mask := 0xF0FF#16 },
  { mnemonic := "FX33", bits := 0xF033#16, mask := 0xF0FF#16 },
  { mnemonic := "FX55", bits := 0xF055#16, mask := 0xF0FF#16 },
  { mnemonic := "FX65", bits := 0xF065#16, mask := 0xF0FF#16 } ]

/-- The 36 rows of spec/opcode_table.json (R74). -/
def opcodeTable : List OpcodeRow := opcodeTableOP ++ opcodeTable8 ++ opcodeTableEF

/-- The bits of a word the decoder does not examine, for each instruction that has some (R82 (a) and (b)). -/
def ignoredBits : Instr → Word
  | .op00E0 | .op00EE | .op00FE | .op00FF => 0x0F00#16
  | .op5XY0 _ _ | .op9XY0 _ _ => 0x000F#16
  | .op1NNN _ | .op2NNN _ | .op3XNN _ _ | .op4XNN _ _ | .op6XNN _ _ | .op7XNN _ _
  | .op8XY0 _ _ | .op8XY1 _ _ | .op8XY2 _ _ | .op8XY3 _ _ | .op8XY4 _ _ | .op8XY5 _ _
  | .op8XY6 _ _ | .op8XY7 _ _ | .op8XYE _ _ | .opANNN _ | .opBNNN _ | .opCXNN _ _
  | .opDXYN _ _ _ | .opEX9E _ | .opEXA1 _ | .opFX07 _ | .opFX0A _ | .opFX15 _
  | .opFX18 _ | .opFX1E _ | .opFX29 _ | .opFX33 _ | .opFX55 _ | .opFX65 _ => 0

/-- The word of `nbits` bits whose bits are `w`, bit 0 the least significant; the bits above `nbits` are 0 (R7, R72). -/
def tableWord (nbits w : Nat) : Word := BitVec.ofNat 16 (w % 2 ^ nbits)

/-- What the decoder reads from the word `w` of spec/opcode_table.json, laid out as the hardware stores it: the high byte
at the lower address (R50). -/
def decodeTableWord (nbits w : Nat) : Option Instr :=
  match decodeBytes [highByte (tableWord nbits w), lowByte (tableWord nbits w)] with
  | .ok (i, _) => some i
  | .error _ => none

end Sys2Proof
end

