-- ==== Sys2Proof/Machine/Fetch.lean ====
section
/-! DEFINITION. Fetching an instruction's bytes (spec/20_memory.md R50, R54; spec/30_encoding.md R70, R71). -/

namespace Sys2Proof.Machine

/-- The word at PC: MEM[PC] high, MEM[PC + 1] low, each address reduced by itself; PC may be odd (R50, R52, R54). -/
def State.fetchWord (s : State) : Word := composeWord (s.memRead s.pc 0) (s.memRead s.pc 1)

/-- The start of a cycle that is not halted: the fetched word is latched in OPCODE, and no output is asserted yet
(R70, R71). -/
def State.fetched (s : State) : State := (s.setOpcode s.fetchWord).setOutputs false none

/-- Store an instruction's two bytes where the next cycle fetches them (R50). -/
def State.storeAtPc (s : State) (w : Word) : State := s.memWriteList s.pc 0 [highByte w, lowByte w]

end Sys2Proof.Machine
end

