-- ==== Sys2Proof/Machine/Timer.lean ====
section
/-! DEFINITION. The timer tick (spec/60_exceptions.md R221 to R225). -/

namespace Sys2Proof.Machine

/-- One count of a timer: a timer at 0 stays at 0 (R222). -/
def countDown (b : Byte) : Byte := if b = 0x00#8 then 0x00#8 else b - 0x01#8

/-- TimerTick(): both timers count down; `beep` is asserted when the tick finds ST = 1 (R222, R225). -/
def State.timerTick (s : State) : State :=
  ((s.setDt (countDown s.dt)).setSt (countDown s.st)).setOutputs (s.st == 0x01#8) s.diag

end Sys2Proof.Machine
end

