-- ==== Sys2Proof/Machine/Unknown.lean ====
section
/-! DEFINITION. The unknown opcode (spec/30_encoding.md R80; spec/60_exceptions.md R206). -/

namespace Sys2Proof.Machine

/-- Unknown(w): `diag` asserted with the word, PC advanced by 2, nothing else (R80, R206). -/
def execUnknown (w : Word) (s : State) : State :=
  (s.setOutputs s.beep (some w)).fallThrough

end Sys2Proof.Machine
end

