-- ==== Sys2Proof/Machine/Cycle.lean ====
section
/-! DEFINITION. One cycle of the core (spec/30_encoding.md R70; spec/60_exceptions.md R203, R204, R223). -/

namespace Sys2Proof.Machine

/-- The cycle's inputs are used up: the script's entry, or one free draw (R11, R70, R231). -/
def State.consumeInput (s : State) : State :=
  match s.host with
  | .cycle _ _ :: rest => s.setHost rest s.draws
  | _ => s.setHost s.host (s.draws + 1)

/-- The end of a cycle that was not halted: the timer tick, when the `tick` input is true and the cycle raised no fault
(R70 steps 4 and 5, R203, R223). -/
def State.endCycle (s : State) (tick : Bool) : State :=
  (if s.fault = .none ∧ tick = true then s.timerTick else s).consumeInput

/-- Decode and execute the fetched word: one of the 36 instructions, or Unknown (R70 steps 3 and 4). -/
def execWord (w : Word) (s : State) : Host.Outcome State Fault Refusal :=
  match decode w with
  | .ok i => exec i s
  | .error _ => .next (execUnknown w s)

/-- Cycle(tick, rnd). Halted: nothing changes and no output is asserted (R204). After a failed load: no meaning (R247). -/
def runCycle (s : State) : Host.Outcome State Fault Refusal :=
  if s.loadFailed = true then .refused .afterFailedLoad
  else if s.fault ≠ .none then .next (s.setOutputs false none).consumeInput
  else
    match execWord s.fetchWord s.fetched with
    | .next t => .next (t.endCycle s.tickIn)
    | .fault r => .fault r
    | .refused r => .refused r

end Sys2Proof.Machine
end

