-- ==== Sys2Proof/Machine/HostPort.lean ====
section
/-! DEFINITION. The host's moves and the outputs it reads (spec/00_scope.md R11, R12; spec/60_exceptions.md R203, R227, R229;
spec/70_reset_and_hazards.md R240, R247). The host acts only between cycles. -/

namespace Sys2Proof.Machine

/-- Reset(): every element of R20 at its reset value. The configuration is fixed for a run (R43) and the host's script and
the count of free draws are the host's own: they stay (R240, R241). -/
def State.hostReset (s : State) : State :=
  { State.reset with cfg := s.cfg, host := s.host, draws := s.draws }

/-- The image copied verbatim to consecutive addresses from PROG_BASE + `j` up, through the `mem_wr` port (R247, R248). The
addresses differ, so the order of the writes shows in nothing. -/
def copyImage (font : Vector Byte 80) (m : Memory) (j : Nat) : List Byte → Memory
  | [] => m
  | b :: rest => Memory.write font (copyImage font m (j + 1) rest) (progBase + j) b

/-- `load_program(bytes)`: CapacityError when the image is longer than 3584 bytes, after which the state is unspecified
until a reset; otherwise Reset() and the copy (R207, R247). -/
def State.loadProgram (s : State) (image : List Byte) : State :=
  if image.length > maxRom then s.setLoadFailed true
  else s.hostReset.setMem (copyImage s.cfg.font [] 0 image)

/-- The answer of `load_program`: true is success, false CapacityError (R247). -/
def loadSucceeds (image : List Byte) : Bool := decide (image.length ≤ maxRom)

/-- `frame_query`: the current DIRTY, and DIRTY <- 0 (R229). -/
def State.frameQuery (s : State) : Bool × State := (s.dirty, s.setDirty false)

/-- What a host move does to the state (R11). -/
def hostMove (m : HostMove) (s : State) : State :=
  match m with
  | .reset => s.hostReset
  | .loadProgram image => s.loadProgram image
  | .keyWr k b => s.setKey k b
  | .frameQuery => s.frameQuery.2

/-- The script without the moves that stand before the next cycle. -/
def dropMoves : List HostEvent → List HostEvent
  | .move _ :: rest => dropMoves rest
  | events => events

/-- `fb_rd(x, y)`: the host's read of FB[y][x] (R12, R229). -/
def State.fbRd (s : State) (p : Pixel) : Bool := pixelOf s.fb p

/-- The cell is in the visible image, the active grid (R229). -/
def State.visible (s : State) (p : Pixel) : Bool := decide (p.x.val < gridW s.ext) && decide (p.y.val < gridH s.ext)

/-- The code of the FAULT latch (R200). -/
def faultNumber : FaultCode → Nat
  | .none => 0
  | .stackOverflow => 1
  | .stackUnderflow => 2

/-- The `fault` output: fault code, faulting PC, faulting word (R12, R203). -/
def State.faultOut (s : State) : Nat × Word × Word := (faultNumber s.fault, s.pc, s.opcode)

end Sys2Proof.Machine
end

