-- ==== Sys2Proof/Machine/Step.lean ====
section
/-! DEFINITION. One step of the machine: the host's next scripted move, or one cycle of the core (spec/00_scope.md R11;
spec/30_encoding.md R70). -/

namespace Sys2Proof.Machine

/-- The script's next entry says who moves. With no script the core runs its cycles in the reference environment (R223). -/
def step (s : State) : Host.Outcome State Fault Refusal :=
  match s.host with
  | .move m :: rest => .next (hostMove m (s.setHost rest s.draws))
  | _ => runCycle s

/-- `s` with the table's word stored at PC, so that the next step fetches and runs it: no host move is pending, the core is
not halted and no load has failed; everything else is as it was. From reset only the two bytes of MEM change. -/
def State.withFetchWord (s : State) (nbits w : Nat) : State :=
  (((s.storeAtPc (tableWord nbits w)).setHost (dropMoves s.host) s.draws).setFault .none).setLoadFailed false

end Sys2Proof.Machine
end

