-- ==== Sys2Proof/Safety.lean ====
section
/-! DEFINITION. The terms claims are stated in: the parts of the state and what leaves them alone, the invariant of the
machine, when the core runs a cycle, what a safe run is, and the end of a run (spec/10_state.md R20;
spec/70_reset_and_hazards.md R249, R251). -/

namespace Sys2Proof

/-- The encoding line of an instruction rule: exactly the words with these bits under this mask decode to the instruction,
with the fields of the word as operands (R72, R74). -/
def DecodesAs (pattern mask : Word) (instr : Word → Instr) : Prop :=
  ∀ w : Word, w &&& mask = pattern ↔ decode w = .ok (instr w)

end Sys2Proof

namespace Sys2Proof.Machine

/-- The parts of the state, element by element (R20), and the model's own fields. -/
inductive Part where
  | reg (r : RegNo)
  | pc
  | i
  | sp
  | stack (j : Fin 16)
  | dt
  | st
  | ext
  | dirty
  | opcode
  | fault
  | key (k : KeyNo)
  | mem (a : Nat)
  | cell (p : Pixel)
  | beep
  | diag
  | cfg
  | host
  | draws
  | loadFailed
  deriving DecidableEq, Repr

/-- The part reads the same in both states; memory and framebuffer are compared by what reading them gives. -/
def Part.same (s t : State) : Part → Prop
  | .reg r => t.reg r = s.reg r
  | .pc => t.pc = s.pc
  | .i => t.i = s.i
  | .sp => t.sp = s.sp
  | .stack j => t.stack[j] = s.stack[j]
  | .dt => t.dt = s.dt
  | .st => t.st = s.st
  | .ext => t.ext = s.ext
  | .dirty => t.dirty = s.dirty
  | .opcode => t.opcode = s.opcode
  | .fault => t.fault = s.fault
  | .key k => t.key[k] = s.key[k]
  | .mem a => t.byteAt a = s.byteAt a
  | .cell p => pixelOf t.fb p = pixelOf s.fb p
  | .beep => t.beep = s.beep
  | .diag => t.diag = s.diag
  | .cfg => t.cfg = s.cfg
  | .host => t.host = s.host
  | .draws => t.draws = s.draws
  | .loadFailed => t.loadFailed = s.loadFailed

/-- The frame: every part but those named reads the same afterwards. -/
def OnlyChanges (changed : Part → Prop) (s t : State) : Prop := ∀ p, ¬ changed p → p.same s t

/-- The host's script has no move pending before the next cycle: the core moves next (R11). -/
def State.coreNext (s : State) : Bool :=
  match s.host with
  | .move _ :: _ => false
  | _ => true

/-- The next step is a cycle that fetches: the core moves next, it is not halted, and no load has failed (R70, R247). -/
structure State.Ready (s : State) : Prop where
  coreNext : s.coreNext = true
  loaded : s.loadFailed = false
  notHalted : s.fault = .none

/-- The invariant of the machine. Every step keeps it from every state, and reset has it. -/
structure State.Inv (s : State) : Prop where
  /-- memory is in its one canonical form, inside the 4096 addresses (R38) -/
  memCanonical : Memory.wf s.cfg.font s.mem = true
  /-- a halted core asserts no output pulse (R203, R204) -/
  haltedQuiet : s.fault ≠ .none → s.beep = false ∧ s.diag = none
  /-- while halted, OPCODE is still the word at PC: the faulting instruction changed neither (R203) -/
  haltedSite : s.fault ≠ .none → s.fetchWord = s.opcode
  /-- StackOverflow stands only where a 2NNN met a full stack (R200, R201) -/
  overflowSite : s.fault = .stackOverflow → s.sp = 16 ∧ ∃ nnn, decode s.opcode = .ok (.op2NNN nnn)
  /-- StackUnderflow stands only where a 00EE met an empty stack (R200, R202) -/
  underflowSite : s.fault = .stackUnderflow → s.sp = 0 ∧ decode s.opcode = .ok .op00EE
  /-- the diagnostic's word is OPCODE, and the decoder rejects it (R206) -/
  diagWord : ∀ w, s.diag = some w → w = s.opcode ∧ decode w = .error (.unknownOpcode w)
  /-- a beep leaves ST at 0 (R222, R225) -/
  beepSilences : s.beep = true → s.st = 0x00#8

/-- The addresses an instruction stores to: three from I up for FX33, X + 1 for FX55, none for any other (R53, R192). -/
def storeAddrs (i : Instr) (s : State) : List Nat :=
  match i with
  | .opFX33 _ => (List.range 3).map fun k => effAddr s.i k
  | .opFX55 x => (List.range (x.val + 1)).map fun k => effAddr s.i k
  | .op00E0 | .op00EE | .op00FE | .op00FF | .op1NNN _ | .op2NNN _ | .op3XNN _ _ | .op4XNN _ _
  | .op5XY0 _ _ | .op6XNN _ _ | .op7XNN _ _ | .op8XY0 _ _ | .op8XY1 _ _ | .op8XY2 _ _ | .op8XY3 _ _
  | .op8XY4 _ _ | .op8XY5 _ _ | .op8XY6 _ _ | .op8XY7 _ _ | .op8XYE _ _ | .op9XY0 _ _ | .opANNN _
  | .opBNNN _ | .opCXNN _ _ | .opDXYN _ _ _ | .opEX9E _ | .opEXA1 _ | .opFX07 _ | .opFX0A _
  | .opFX15 _ | .opFX18 _ | .opFX1E _ | .opFX29 _ | .opFX65 _ => []

/-- The obligation of R57 and R251 (a) on one cycle: the instruction at PC stores nothing below PROG_BASE. -/
def State.storesInProgram (s : State) : Prop :=
  ∀ i, decode s.fetchWord = .ok i → ∀ a ∈ storeAddrs i s, progBase ≤ a

/-- Every element of R20 but MEM at its reset value, and no output asserted (R20, R240). -/
structure State.ResetButMem (s : State) : Prop where
  v : ∀ r, s.reg r = 0x00#8
  pc : s.pc = 0x0200#16
  i : s.i = 0x0000#16
  sp : s.sp = 0
  stack : ∀ j : Fin 16, s.stack[j] = 0x0000#16
  dt : s.dt = 0x00#8
  st : s.st = 0x00#8
  ext : s.ext = false
  dirty : s.dirty = true
  opcode : s.opcode = 0x0000#16
  fault : s.fault = .none
  key : ∀ k : KeyNo, s.key[k] = false
  fb : ∀ p, pixelOf s.fb p = false
  outputs : s.beep = false ∧ s.diag = none
  loaded : s.loadFailed = false

/-- MEM as reset leaves it: FONT in 0 to 79, 0x00 in 80 to 4095 (R38, R40, R240). -/
def State.ResetMem (s : State) : Prop :=
  (∀ a, (h : a < 80) → s.byteAt a = s.cfg.font[a]) ∧ ∀ a, 80 ≤ a → a < memSize → s.byteAt a = 0x00#8

/-- Column `c` of row `r` of the sprite DXYN draws is a 1 bit: bit 7 - c of the byte at I + r (R160, R161). -/
def spriteBit (s : State) (r c : Nat) : Prop := (s.byteAt (effAddr s.i r)).getLsbD (7 - c) = true

/-- The pixel position (x, y) lands on cell `p`: the formulas of R162 for the two values of DRAW_WRAP. -/
def landsOn (s : State) (x y : Nat) (p : Pixel) : Prop :=
  match s.cfg.drawWrap with
  | .linear =>
    p.x.val = (x + y * gridW s.ext) % (gridW s.ext * gridH s.ext) % gridW s.ext ∧
    p.y.val = (x + y * gridW s.ext) % (gridW s.ext * gridH s.ext) / gridW s.ext
  | .perAxis => p.x.val = x % gridW s.ext ∧ p.y.val = y % gridH s.ext

/-- Some 1 bit of the N-row sprite at (V[X], V[Y]) addresses cell `p` (R160). -/
def spriteHits (s : State) (x y : RegNo) (n : Fin 16) (p : Pixel) : Prop :=
  ∃ r < n.val, ∃ c < 8, spriteBit s r c ∧ landsOn s ((s.reg x).toNat + c) ((s.reg y).toNat + r) p

/-- The registers an instruction may write: V[X], VF where it is a flag, V[0] to V[X] for FX65 (R22, R26). -/
def writesReg (i : Instr) (r : RegNo) : Prop :=
  match i with
  | .op6XNN x _ | .op7XNN x _ | .op8XY0 x _ | .op8XY1 x _ | .op8XY2 x _ | .op8XY3 x _ | .opCXNN x _ | .opFX07 x
  | .opFX0A x => r = x
  | .op8XY4 x _ | .op8XY5 x _ | .op8XY6 x _ | .op8XY7 x _ | .op8XYE x _ => r = x ∨ r = 0xF
  | .opDXYN _ _ _ | .opFX1E _ => r = 0xF
  | .opFX65 x => r ≤ x
  | .op00E0 | .op00EE | .op00FE | .op00FF | .op1NNN _ | .op2NNN _ | .op3XNN _ _ | .op4XNN _ _ | .op5XY0 _ _
  | .op9XY0 _ _ | .opANNN _ | .opBNNN _ | .opEX9E _ | .opEXA1 _ | .opFX15 _ | .opFX18 _ | .opFX29 _ | .opFX33 _
  | .opFX55 _ => False

/-- ST as this cycle's tick finds it: what an FX18 of the same cycle writes, else as it was (R184, R222). -/
def State.stBeforeTick (s : State) : Byte :=
  match decode s.fetchWord with
  | .ok (.opFX18 x) => s.reg x
  | _ => s.st

/-- DT as this cycle's tick finds it (R183, R222). -/
def State.dtBeforeTick (s : State) : Byte :=
  match decode s.fetchWord with
  | .ok (.opFX15 x) => s.reg x
  | _ => s.dt

/-- Nothing has gone wrong: no fault, no diagnostic in the last cycle, no failed load (R204, R206, R251). -/
structure State.Safe (s : State) : Prop where
  noFault : s.fault = .none
  noDiag : s.diag = none
  loaded : s.loadFailed = false

/-- A run of `k` steps in which nothing goes wrong and every store stays in program space (R251). -/
def SafeRun : Nat → State → Prop
  | 0, s => s.Safe
  | k + 1, s => s.Safe ∧ s.storesInProgram ∧ ∃ t, step s = .next t ∧ SafeRun k t

/-- The conventional end of a run: a jump to its own address stands at PC (R249). -/
def State.AtSelfJump (s : State) : Prop := ∃ nnn, decode s.fetchWord = .ok (.op1NNN nnn) ∧ zextAddr nnn = s.pc

end Sys2Proof.Machine
end

