-- ==== Sys2Proof/Certificates/Slice0/Obligations.lean ====
section
/-! DEFINITION. The statements for the provers, each formalising a rule of the spec (its docstring and OBLIGATIONS.json name
it). `t` is the state after, `s` the state before; `OnlyChanges` is the frame: every part it does not name reads the same;
`DecodesAs` is the encoding line of an instruction's rule. -/

open Sys2Proof Sys2Proof.Machine

/-! ### Encoding and decoding -/

/-- The encoder's word, and its two bytes with anything after them, decode to the instruction
(spec/30_encoding.md R72 to R79; spec/20_memory.md R50). -/
def Obligations.EncodedInstructionDecodesBack : Prop :=
  ∀ (i : Instr) (rest : List Byte),
    i.wf = true ∧ decode (encode i) = .ok i ∧ decodeBytes (encodeBytes i ++ rest) = .ok (i, rest)

/-- A word that decodes is its instruction's word but for the bits the decoder ignores: no other bit is dropped (R82;
which bits are ignored is the spec's decision D10). -/
def Obligations.DecodedWordEncodesBack : Prop :=
  ∀ (w : Word) (i : Instr), decode w = .ok i → encode i = w &&& ~~~ ignoredBits i

/-- Exactly one row of the table selects a word that decodes, and it is its instruction's row; no row selects any other
word, which is Unknown; no two rows overlap (R87, which the spec derives from R76 to R79). -/
def Obligations.DecodingIsTotalAndUnambiguous : Prop :=
  (∀ w : Word,
    (∃ i r, decode w = .ok i ∧ r ∈ opcodeTable ∧ r.mnemonic = i.mnemonic ∧
      ∀ r' ∈ opcodeTable, r'.selects w = true ↔ r' = r) ∨
    (decode w = .error (.unknownOpcode w) ∧ ∀ r ∈ opcodeTable, r.selects w = false)) ∧
  ∀ r ∈ opcodeTable, ∀ r' ∈ opcodeTable, ∀ w : Word, r.selects w = true → r'.selects w = true → r = r'

/-- The unknown words, family by family (R81, which the spec derives from R76 to R79). -/
def Obligations.UnknownWordsByFamily : Prop :=
  ∀ w : Word, decode w = .error (.unknownOpcode w) ↔
    (w.toNat / 4096 = 0x0 ∧ w.toNat % 256 ∉ [0xE0, 0xEE, 0xFE, 0xFF]) ∨
    (w.toNat / 4096 = 0x8 ∧ w.toNat % 16 ∈ [0x8, 0x9, 0xA, 0xB, 0xC, 0xD, 0xF]) ∨
    (w.toNat / 4096 = 0xE ∧ w.toNat % 256 ∉ [0x9E, 0xA1]) ∨
    (w.toNat / 4096 = 0xF ∧ w.toNat % 256 ∉ [0x07, 0x0A, 0x15, 0x18, 0x1E, 0x29, 0x33, 0x55, 0x65])

/-- A few words written out bit by bit from their rows (R73, R76 to R79). -/
def Obligations.SampleWordsDecode : Prop :=
  decode 0b0000_0000_1110_1110#16 = .ok .op00EE ∧
  decode 0b0010_0011_0100_0101#16 = .ok (.op2NNN 0x345#12) ∧
  decode 0b1000_0001_0010_0100#16 = .ok (.op8XY4 1 2) ∧
  decode 0b1101_0001_0010_0101#16 = .ok (.opDXYN 1 2 5) ∧
  decode 0b1110_0010_1010_0001#16 = .ok (.opEXA1 2) ∧
  decode 0b1111_1010_0011_0011#16 = .ok (.opFX33 0xA) ∧
  decode 0b0000_0000_0000_0000#16 = .error (.unknownOpcode 0x0000#16)

/-! ### The cycle -/

/-- R50: the fetched word is MEM[PC] : MEM[PC + 1], each address reduced modulo 4096 by itself. -/
def Obligations.FetchIsBigEndian : Prop :=
  ∀ s : State, s.fetchWord.toNat =
    256 * (s.byteAt (s.pc.toNat % 4096)).toNat + (s.byteAt ((s.pc.toNat + 1) % 4096)).toNat

/-- When the bytes at PC decode to `i`, a step is `exec i` on the state with the word latched in OPCODE and no output
asserted yet, then the timer tick if `tick` is true and no fault was raised; the cycle's inputs are used up (R70; the spec's
decisions D2, D3, D8; the script of inputs is the model's, log entry 2). -/
def Obligations.StepRunsDecodedInstruction : Prop :=
  ∀ (s : State) (i : Instr), s.Ready → decode s.fetchWord = .ok i →
    ∃ t, exec i ((s.setOpcode s.fetchWord).setOutputs false none) = .next t ∧
      step s = .next (if t.fault = .none ∧ s.tickIn = true then t.timerTick else t).consumeInput

/-- A word that does not decode is reported on `diag` and otherwise a no-op that advances PC by 2; the tick runs (R80, R206;
the spec's decision D9). -/
def Obligations.UnknownOpcodeIsDiagnosedNoOp : Prop :=
  ∀ (s : State) (r : Reject), s.Ready → decode s.fetchWord = .error r →
    ∃ t, step s = .next t ∧ t.diag = some s.fetchWord ∧ t.opcode = s.fetchWord ∧
      t.pc.toNat = (s.pc.toNat + 2) % 65536 ∧
      t.dt.toNat = (if s.tickIn = true then s.dt.toNat - 1 else s.dt.toNat) ∧
      t.st.toNat = (if s.tickIn = true then s.st.toNat - 1 else s.st.toNat) ∧
      (t.beep = true ↔ s.tickIn = true ∧ s.st.toNat = 1) ∧
      OnlyChanges (fun p => p = .pc ∨ p = .opcode ∨ p = .diag ∨ p = .beep ∨ p = .dt ∨ p = .st ∨ p = .host ∨
        p = .draws) s t

/-- A halted cycle changes no element and asserts nothing; the only exits are the host's reset and load (R204; the spec's
decision D8). -/
def Obligations.HaltedCoreChangesNothing : Prop :=
  ∀ s : State, s.fault ≠ .none →
    (s.coreNext = true → s.loadFailed = false →
      ∃ t, step s = .next t ∧ t.beep = false ∧ t.diag = none ∧
        OnlyChanges (fun p => p = .beep ∨ p = .diag ∨ p = .host ∨ p = .draws) s t) ∧
    ∀ t, step s = .next t → t.fault ≠ s.fault →
      t.fault = .none ∧ ∃ rest, s.host = .move .reset :: rest ∨
        ∃ image : List Byte, image.length ≤ 3584 ∧ s.host = .move (.loadProgram image) :: rest

/-- Every step completes, but for a cycle called after a failed load, which has no meaning (R70, R247; U2 of
spec/93_implementation_defined.md, whose treatment is `refuse`). -/
def Obligations.EveryStepCompletes : Prop :=
  ∀ s : State,
    (s.coreNext = true ∧ s.loadFailed = true → step s = .refused .afterFailedLoad) ∧
    (¬ (s.coreNext = true ∧ s.loadFailed = true) → ∃ t, step s = .next t)

/-- A fault latches its code and changes nothing else in the cycle: PC stays on the faulting instruction, OPCODE holds
its word, no tick runs, no output is asserted, and the `fault` output presents the three (R203; the spec's decisions D7, D8). -/
def Obligations.FaultEntryIsPrecise : Prop :=
  ∀ (s : State) (i : Instr) (c : FaultCode), s.Ready → decode s.fetchWord = .ok i →
    ((∃ nnn, i = .op2NNN nnn) ∧ s.sp.val = 16 ∧ c = .stackOverflow) ∨
      (i = .op00EE ∧ s.sp.val = 0 ∧ c = .stackUnderflow) →
    ∃ t, step s = .next t ∧ t.fault = c ∧ t.opcode = s.fetchWord ∧ t.beep = false ∧ t.diag = none ∧
      t.faultOut = (if c = .stackOverflow then 1 else 2, s.pc, s.fetchWord) ∧
      OnlyChanges (fun p => p = .fault ∨ p = .opcode ∨ p = .beep ∨ p = .diag ∨ p = .host ∨ p = .draws) s t

/-- No instruction but 2NNN and 00EE raises a fault, and they raise it exactly at depth 16 and at depth 0 (R200 to R202; the
spec's decision D7). -/
def Obligations.OnlyCallAndReturnFault : Prop :=
  ∀ (i : Instr) (s t : State), exec i s = .next t → s.fault = .none →
    (t.fault = .stackOverflow ↔ (∃ nnn, i = .op2NNN nnn) ∧ s.sp.val = 16) ∧
    (t.fault = .stackUnderflow ↔ i = .op00EE ∧ s.sp.val = 0)

/-! ### Reset and the host -/

/-- State.reset: every element of the state at its reset value (R20, R240; EXT and FAULT by the spec's decision D26, log
entry 10). That the model's own fields beep, diag and loadFailed stand at false, none and false is the model's choice
(DESIGN CHOICE, log entry 14). -/
def Obligations.ResetStateValues : Prop := State.reset.ResetButMem ∧ State.reset.ResetMem

/-- The host's reset always succeeds, from any state, and sets every element to its reset value (R240, R20; EXT and FAULT by
the spec's decision D26, log entry 10). That it keeps the configuration and the rest of the script, and clears the model's
own beep, diag and loadFailed, is the model's choice (DESIGN CHOICE, log entries 2, 4, 14). -/
def Obligations.HostResetFromAnyState : Prop :=
  ∀ (s : State) (rest : List HostEvent), s.host = .move .reset :: rest →
    ∃ t, step s = .next t ∧ t.ResetButMem ∧ t.ResetMem ∧ t.cfg = s.cfg ∧ t.host = rest

/-- load_program resets, then copies the image to 0x200 and up; longer than 3584 bytes is a CapacityError, after which
no cycle has a meaning until a reset or a successful load (R247; the spec's decision D29; U2, whose
treatment is `refuse`). That the configuration and the rest of the script stay and that the model's own fields are cleared
are the model's choices (DESIGN CHOICE, log entries 2, 4, 14). -/
def Obligations.LoadProgramCopiesImage : Prop :=
  ∀ (s : State) (image : List Byte) (rest : List HostEvent), s.host = .move (.loadProgram image) :: rest →
    ∃ t, step s = .next t ∧ t.host = rest ∧ t.cfg = s.cfg ∧ (loadSucceeds image = true ↔ image.length ≤ 3584) ∧
      (image.length ≤ 3584 → t.ResetButMem ∧
        (∀ j, (h : j < image.length) → t.byteAt (0x200 + j) = image[j]) ∧
        (∀ a, (h : a < 80) → t.byteAt a = t.cfg.font[a]) ∧
        (∀ a, 80 ≤ a → a < 4096 → (a < 0x200 ∨ 0x200 + image.length ≤ a) → t.byteAt a = 0x00#8)) ∧
      (3584 < image.length → t.coreNext = true → step t = .refused .afterFailedLoad)

/-- `key_wr(k, b)` writes KEY[k] and nothing else (R227; the spec's decision D20; the script is the model's, log entry 2). -/
def Obligations.KeyWriteSetsOneKey : Prop :=
  ∀ (s : State) (k : KeyNo) (b : Bool) (rest : List HostEvent), s.host = .move (.keyWr k b) :: rest →
    ∃ t, step s = .next t ∧ t.key[k] = b ∧ t.host = rest ∧ OnlyChanges (fun p => p = .key k ∨ p = .host) s t

/-- `frame_query` returns the current DIRTY, then clears it, and has no other effect (R229; the spec's decision D23; the script
is the model's, log entry 2). -/
def Obligations.FrameQueryClearsDirty : Prop :=
  ∀ (s : State) (rest : List HostEvent), s.host = .move .frameQuery :: rest →
    ∃ t, step s = .next t ∧ s.frameQuery.1 = s.dirty ∧ t.dirty = false ∧ t.host = rest ∧
      OnlyChanges (fun p => p = .dirty ∨ p = .host) s t

/-! ### Family 0, jumps, calls and skips -/

/-- 00E0: every cell is 0 afterwards, in both modes, and DIRTY is set (R100; the spec's decisions D10, D16). -/
def Obligations.ClearScreenClearsEveryCell : Prop :=
  DecodesAs 0x00E0#16 0xF0FF#16 (fun _ => .op00E0) ∧
  ∀ s : State, ∃ t, exec .op00E0 s = .next t ∧ (∀ p, pixelOf t.fb p = false) ∧ t.dirty = true ∧
    t.pc.toNat = (s.pc.toNat + 2) % 65536 ∧
    OnlyChanges (fun p => p = .pc ∨ p = .dirty ∨ ∃ q, p = .cell q) s t

/-- 00EE: pop, resume at the popped address + 2, the popped entry keeping its value; StackUnderflow at depth 0 (R101, R202; the
spec's decisions D6, D7, D10). -/
def Obligations.ReturnPopsOrUnderflows : Prop :=
  DecodesAs 0x00EE#16 0xF0FF#16 (fun _ => .op00EE) ∧
  ∀ s : State,
    (∀ h : s.sp.val ≠ 0, ∃ t, exec .op00EE s = .next t ∧ t.sp.val = s.sp.val - 1 ∧
      t.pc.toNat = ((s.stack[s.sp.val - 1]'(by omega)).toNat + 2) % 65536 ∧
      OnlyChanges (fun p => p = .pc ∨ p = .sp) s t) ∧
    (s.sp.val = 0 → ∃ t, exec .op00EE s = .next t ∧ t.fault = .stackUnderflow ∧ OnlyChanges (fun p => p = .fault) s t)

/-- 00FE and 00FF: EXT is written, FB and DIRTY are not (R102, R103; the spec's decisions D10, D16). -/
def Obligations.ModeSwitchWritesExtOnly : Prop :=
  DecodesAs 0x00FE#16 0xF0FF#16 (fun _ => .op00FE) ∧
  DecodesAs 0x00FF#16 0xF0FF#16 (fun _ => .op00FF) ∧
  ∀ s : State,
    (∃ t, exec .op00FE s = .next t ∧ t.ext = false ∧ t.pc.toNat = (s.pc.toNat + 2) % 65536 ∧
      OnlyChanges (fun p => p = .pc ∨ p = .ext) s t) ∧
    (∃ t, exec .op00FF s = .next t ∧ t.ext = true ∧ t.pc.toNat = (s.pc.toNat + 2) % 65536 ∧
      OnlyChanges (fun p => p = .pc ∨ p = .ext) s t)

/-- R110: PC <- NNN, and nothing else. -/
def Obligations.JumpSetsPc : Prop :=
  DecodesAs 0x1000#16 0xF000#16 (fun w => .op1NNN (fieldNNN w)) ∧
  ∀ (s : State) (nnn : Addr), ∃ t, exec (.op1NNN nnn) s = .next t ∧ t.pc.toNat = nnn.toNat ∧
    OnlyChanges (fun p => p = .pc) s t

/-- 2NNN: push the call's own address, go to NNN; StackOverflow at depth 16 (R111, R201; the spec's decisions D6, D7). -/
def Obligations.CallPushesOrOverflows : Prop :=
  DecodesAs 0x2000#16 0xF000#16 (fun w => .op2NNN (fieldNNN w)) ∧
  ∀ (s : State) (nnn : Addr),
    (∀ h : s.sp.val < 16, ∃ t, exec (.op2NNN nnn) s = .next t ∧ t.stack[s.sp.val] = s.pc ∧ t.sp.val = s.sp.val + 1 ∧
      t.pc.toNat = nnn.toNat ∧
      OnlyChanges (fun p => p = .pc ∨ p = .sp ∨ p = .stack ⟨s.sp.val, h⟩) s t) ∧
    (s.sp.val = 16 → ∃ t, exec (.op2NNN nnn) s = .next t ∧ t.fault = .stackOverflow ∧
      OnlyChanges (fun p => p = .fault) s t)

/-- A call below depth 16 and the return that meets its entry resume after the call, at the depth before it,
whatever PC the return stands at (from R101 and R111). -/
def Obligations.ReturnResumesAfterCall : Prop :=
  ∀ (s : State) (nnn : Addr) (pc : Word), s.sp.val < 16 →
    ∃ t u, exec (.op2NNN nnn) s = .next t ∧ exec .op00EE (t.setPc pc) = .next u ∧
      u.pc.toNat = (s.pc.toNat + 2) % 65536 ∧ u.sp = s.sp ∧
      OnlyChanges (fun p => p = .pc ∨ ∃ j, p = .stack j ∧ j.val = s.sp.val) s u

/-- R112, R113: 4 when the condition holds, 2 when it does not. -/
def Obligations.ImmediateSkips : Prop :=
  DecodesAs 0x3000#16 0xF000#16 (fun w => .op3XNN (fieldX w) (fieldNN w)) ∧
  DecodesAs 0x4000#16 0xF000#16 (fun w => .op4XNN (fieldX w) (fieldNN w)) ∧
  ∀ (s : State) (x : RegNo) (nn : Byte),
    (∃ t, exec (.op3XNN x nn) s = .next t ∧
      t.pc.toNat = (s.pc.toNat + if (s.reg x).toNat = nn.toNat then 4 else 2) % 65536 ∧ OnlyChanges (fun p => p = .pc) s t) ∧
    (∃ t, exec (.op4XNN x nn) s = .next t ∧
      t.pc.toNat = (s.pc.toNat + if (s.reg x).toNat = nn.toNat then 2 else 4) % 65536 ∧ OnlyChanges (fun p => p = .pc) s t)

/-- 5XY0 and 9XY0 (R114, R115; that the low nibble is ignored is the spec's decision D10). -/
def Obligations.RegisterSkips : Prop :=
  DecodesAs 0x5000#16 0xF000#16 (fun w => .op5XY0 (fieldX w) (fieldY w)) ∧
  DecodesAs 0x9000#16 0xF000#16 (fun w => .op9XY0 (fieldX w) (fieldY w)) ∧
  ∀ (s : State) (x y : RegNo),
    (∃ t, exec (.op5XY0 x y) s = .next t ∧
      t.pc.toNat = (s.pc.toNat + if (s.reg x).toNat = (s.reg y).toNat then 4 else 2) % 65536 ∧
      OnlyChanges (fun p => p = .pc) s t) ∧
    (∃ t, exec (.op9XY0 x y) s = .next t ∧
      t.pc.toNat = (s.pc.toNat + if (s.reg x).toNat = (s.reg y).toNat then 2 else 4) % 65536 ∧
      OnlyChanges (fun p => p = .pc) s t)

/-! ### Register arithmetic -/

/-- R120, R121: NN loaded, or added modulo 256 with no flag; VF is a destination like any other. -/
def Obligations.ImmediateLoadAndAdd : Prop :=
  DecodesAs 0x6000#16 0xF000#16 (fun w => .op6XNN (fieldX w) (fieldNN w)) ∧
  DecodesAs 0x7000#16 0xF000#16 (fun w => .op7XNN (fieldX w) (fieldNN w)) ∧
  ∀ (s : State) (x : RegNo) (nn : Byte),
    (∃ t, exec (.op6XNN x nn) s = .next t ∧ t.reg x = nn ∧ t.pc.toNat = (s.pc.toNat + 2) % 65536 ∧
      OnlyChanges (fun p => p = .pc ∨ p = .reg x) s t) ∧
    (∃ t, exec (.op7XNN x nn) s = .next t ∧ (t.reg x).toNat = ((s.reg x).toNat + nn.toNat) % 256 ∧
      t.pc.toNat = (s.pc.toNat + 2) % 65536 ∧ OnlyChanges (fun p => p = .pc ∨ p = .reg x) s t)

/-- 8XY0 to 8XY3, bit by bit; VF is not written as a flag (R132 to R135; the spec's decision D13). -/
def Obligations.AssignAndLogic : Prop :=
  DecodesAs 0x8000#16 0xF00F#16 (fun w => .op8XY0 (fieldX w) (fieldY w)) ∧
  DecodesAs 0x8001#16 0xF00F#16 (fun w => .op8XY1 (fieldX w) (fieldY w)) ∧
  DecodesAs 0x8002#16 0xF00F#16 (fun w => .op8XY2 (fieldX w) (fieldY w)) ∧
  DecodesAs 0x8003#16 0xF00F#16 (fun w => .op8XY3 (fieldX w) (fieldY w)) ∧
  ∀ (s : State) (x y : RegNo),
    (∃ t, exec (.op8XY0 x y) s = .next t ∧ t.reg x = s.reg y ∧
      t.pc.toNat = (s.pc.toNat + 2) % 65536 ∧ OnlyChanges (fun p => p = .pc ∨ p = .reg x) s t) ∧
    (∃ t, exec (.op8XY1 x y) s = .next t ∧
      (∀ k < 8, (t.reg x).getLsbD k = ((s.reg x).getLsbD k || (s.reg y).getLsbD k)) ∧
      t.pc.toNat = (s.pc.toNat + 2) % 65536 ∧ OnlyChanges (fun p => p = .pc ∨ p = .reg x) s t) ∧
    (∃ t, exec (.op8XY2 x y) s = .next t ∧
      (∀ k < 8, (t.reg x).getLsbD k = ((s.reg x).getLsbD k && (s.reg y).getLsbD k)) ∧
      t.pc.toNat = (s.pc.toNat + 2) % 65536 ∧ OnlyChanges (fun p => p = .pc ∨ p = .reg x) s t) ∧
    (∃ t, exec (.op8XY3 x y) s = .next t ∧
      (∀ k < 8, (t.reg x).getLsbD k = ((s.reg x).getLsbD k != (s.reg y).getLsbD k)) ∧
      t.pc.toNat = (s.pc.toNat + 2) % 65536 ∧ OnlyChanges (fun p => p = .pc ∨ p = .reg x) s t)

/-- R136: the sum modulo 256, and the carry in VF; with X = 0xF the flag wins (R131; the spec's decision D11). -/
def Obligations.AddSetsCarry : Prop :=
  DecodesAs 0x8004#16 0xF00F#16 (fun w => .op8XY4 (fieldX w) (fieldY w)) ∧
  ∀ (s : State) (x y : RegNo), ∃ t, exec (.op8XY4 x y) s = .next t ∧
    (x ≠ 0xF → (t.reg x).toNat = ((s.reg x).toNat + (s.reg y).toNat) % 256) ∧
    t.reg 0xF = (if (s.reg x).toNat + (s.reg y).toNat > 255 then 0x01#8 else 0x00#8) ∧
    t.pc.toNat = (s.pc.toNat + 2) % 65536 ∧ OnlyChanges (fun p => p = .pc ∨ p = .reg x ∨ p = .reg 0xF) s t

/-- 8XY5 and 8XY7: the difference modulo 256, and 1 in VF exactly when there was no borrow (R137, R138; the case of equal
operands is the spec's inference in R137, the flag with X = 0xF its decision D11). -/
def Obligations.SubtractSetsNotBorrow : Prop :=
  DecodesAs 0x8005#16 0xF00F#16 (fun w => .op8XY5 (fieldX w) (fieldY w)) ∧
  DecodesAs 0x8007#16 0xF00F#16 (fun w => .op8XY7 (fieldX w) (fieldY w)) ∧
  ∀ (s : State) (x y : RegNo),
    (∃ t, exec (.op8XY5 x y) s = .next t ∧
      (x ≠ 0xF → (t.reg x).toNat = ((s.reg x).toNat + 256 - (s.reg y).toNat) % 256) ∧
      t.reg 0xF = (if (s.reg x).toNat ≥ (s.reg y).toNat then 0x01#8 else 0x00#8) ∧
      t.pc.toNat = (s.pc.toNat + 2) % 65536 ∧ OnlyChanges (fun p => p = .pc ∨ p = .reg x ∨ p = .reg 0xF) s t) ∧
    (∃ t, exec (.op8XY7 x y) s = .next t ∧
      (x ≠ 0xF → (t.reg x).toNat = ((s.reg y).toNat + 256 - (s.reg x).toNat) % 256) ∧
      t.reg 0xF = (if (s.reg y).toNat ≥ (s.reg x).toNat then 0x01#8 else 0x00#8) ∧
      t.pc.toNat = (s.pc.toNat + 2) % 65536 ∧ OnlyChanges (fun p => p = .pc ∨ p = .reg x ∨ p = .reg 0xF) s t)

/-- 8XY6 and 8XYE: V[X] shifted by one in place, the bit shifted out in VF; Y has no part in it (R139 to R141; that V[X] is
the operand is the spec's decision D12, the flag with X = 0xF its decision D11). -/
def Obligations.ShiftsMoveBitIntoFlag : Prop :=
  DecodesAs 0x8006#16 0xF00F#16 (fun w => .op8XY6 (fieldX w) (fieldY w)) ∧
  DecodesAs 0x800E#16 0xF00F#16 (fun w => .op8XYE (fieldX w) (fieldY w)) ∧
  ∀ (s : State) (x y : RegNo),
    (∃ t, exec (.op8XY6 x y) s = .next t ∧ (x ≠ 0xF → (t.reg x).toNat = (s.reg x).toNat / 2) ∧
      (t.reg 0xF).toNat = (s.reg x).toNat % 2 ∧
      t.pc.toNat = (s.pc.toNat + 2) % 65536 ∧ OnlyChanges (fun p => p = .pc ∨ p = .reg x ∨ p = .reg 0xF) s t) ∧
    (∃ t, exec (.op8XYE x y) s = .next t ∧ (x ≠ 0xF → (t.reg x).toNat = (s.reg x).toNat * 2 % 256) ∧
      (t.reg 0xF).toNat = (s.reg x).toNat / 128 ∧
      t.pc.toNat = (s.pc.toNat + 2) % 65536 ∧ OnlyChanges (fun p => p = .pc ∨ p = .reg x ∨ p = .reg 0xF) s t)

/-! ### Index, random, draw, keys -/

/-- ANNN and BNNN (R150, R151; that PC keeps the 16-bit sum is the spec's decision D4). -/
def Obligations.LoadIndexAndIndexedJump : Prop :=
  DecodesAs 0xA000#16 0xF000#16 (fun w => .opANNN (fieldNNN w)) ∧
  DecodesAs 0xB000#16 0xF000#16 (fun w => .opBNNN (fieldNNN w)) ∧
  ∀ (s : State) (nnn : Addr),
    (∃ t, exec (.opANNN nnn) s = .next t ∧ t.i.toNat = nnn.toNat ∧ t.pc.toNat = (s.pc.toNat + 2) % 65536 ∧
      OnlyChanges (fun p => p = .pc ∨ p = .i) s t) ∧
    (∃ t, exec (.opBNNN nnn) s = .next t ∧ t.pc.toNat = (s.reg 0).toNat + nnn.toNat ∧ OnlyChanges (fun p => p = .pc) s t)

/-- CXNN: V[X] is `rnd AND NN`, for the `rnd` the host presents, or, with nothing scripted, for whatever the draw is (R152; the
spec's decision D19; the script and the free draw are the model's, log entry 2). -/
def Obligations.RandomByteIsMasked : Prop :=
  DecodesAs 0xC000#16 0xF000#16 (fun w => .opCXNN (fieldX w) (fieldNN w)) ∧
  ∀ (s : State) (x : RegNo) (nn : Byte), ∃ t, exec (.opCXNN x nn) s = .next t ∧
    (∀ tick rnd rest, s.host = .cycle tick rnd :: rest → t.reg x = rnd &&& nn) ∧
    (s.host = [] → t.reg x = Config.freeRnd s.draws &&& nn) ∧
    (∀ k, nn.getLsbD k = false → (t.reg x).getLsbD k = false) ∧
    t.pc.toNat = (s.pc.toNat + 2) % 65536 ∧ OnlyChanges (fun p => p = .pc ∨ p = .reg x) s t

/-- No instruction but CXNN reads the cycle's inputs, and none of the others changes them (R152, R231). -/
def Obligations.OnlyRandomReadsInputs : Prop :=
  ∀ (i : Instr) (s t : State) (host : List HostEvent) (draws : Nat), (∀ x nn, i ≠ .opCXNN x nn) → exec i s = .next t →
    exec i (s.setHost host draws) = .next (t.setHost host draws) ∧ t.host = s.host ∧ t.draws = s.draws

/-- DXYN: exactly the addressed cells toggle, VF is 1 exactly when one of them was set, DIRTY is set, in both modes and
under both readings of the wrap; every operand is read before VF is written (R160 to R165; the spec's decisions D11, D15). -/
def Obligations.DrawXorsSprite : Prop :=
  DecodesAs 0xD000#16 0xF000#16 (fun w => .opDXYN (fieldX w) (fieldY w) (fieldN w)) ∧
  ∀ (s : State) (x y : RegNo) (n : Fin 16), ∃ t, exec (.opDXYN x y n) s = .next t ∧
    (∀ p, spriteHits s x y n p → pixelOf t.fb p = !pixelOf s.fb p) ∧
    (∀ p, ¬ spriteHits s x y n p → pixelOf t.fb p = pixelOf s.fb p) ∧
    ((∃ p, spriteHits s x y n p ∧ pixelOf s.fb p = true) → t.reg 0xF = 0x01#8) ∧
    ((¬ ∃ p, spriteHits s x y n p ∧ pixelOf s.fb p = true) → t.reg 0xF = 0x00#8) ∧
    t.dirty = true ∧ t.pc.toNat = (s.pc.toNat + 2) % 65536 ∧
    OnlyChanges (fun p => p = .pc ∨ p = .dirty ∨ p = .reg 0xF ∨ ∃ q, p = .cell q) s t

/-- Drawing the same sprite twice at the same place restores every cell, and a sprite with a 1 bit drawn over blank
cells gives VF = 0 and then VF = 1 (from R160; VF = 0 without a collision is the spec's decision D15). -/
def Obligations.DrawTwiceErases : Prop :=
  ∀ (s t : State) (x y : RegNo) (n : Fin 16), x ≠ 0xF → y ≠ 0xF → exec (.opDXYN x y n) s = .next t →
    ∃ u, exec (.opDXYN x y n) t = .next u ∧ (∀ p, pixelOf u.fb p = pixelOf s.fb p) ∧
      ((∃ r < n.val, ∃ c < 8, spriteBit s r c) → (∀ p, spriteHits s x y n p → pixelOf s.fb p = false) →
        t.reg 0xF = 0x00#8 ∧ u.reg 0xF = 0x01#8)

/-- A sprite never touches a cell outside the active grid: 64 by 32 in classic mode, 128 by 64 in extended (R39, R162; the
spec's decisions D15, D16). -/
def Obligations.DrawStaysInActiveGrid : Prop :=
  ∀ (s t : State) (x y : RegNo) (n : Fin 16) (p : Pixel), exec (.opDXYN x y n) s = .next t →
    pixelOf t.fb p ≠ pixelOf s.fb p →
    p.x.val < (if s.ext = true then 128 else 64) ∧ p.y.val < (if s.ext = true then 64 else 32)

/-- EX9E and EXA1 (R170 to R172; that the low four bits select the key is the spec's decision D17). -/
def Obligations.KeySkips : Prop :=
  DecodesAs 0xE09E#16 0xF0FF#16 (fun w => .opEX9E (fieldX w)) ∧
  DecodesAs 0xE0A1#16 0xF0FF#16 (fun w => .opEXA1 (fieldX w)) ∧
  ∀ (s : State) (x : RegNo),
    (∃ t, exec (.opEX9E x) s = .next t ∧
      t.pc.toNat = (s.pc.toNat + if s.key[(s.reg x).toNat % 16]'(Nat.mod_lt _ (by decide)) = true then 4 else 2) % 65536 ∧
      OnlyChanges (fun p => p = .pc) s t) ∧
    (∃ t, exec (.opEXA1 x) s = .next t ∧
      t.pc.toNat = (s.pc.toNat + if s.key[(s.reg x).toNat % 16]'(Nat.mod_lt _ (by decide)) = true then 2 else 4) % 65536 ∧
      OnlyChanges (fun p => p = .pc) s t)

/-! ### Family F -/

/-- FX0A: with no key down nothing at all changes, PC included; else V[X] is the highest pressed key (the lowest under
the other priority) and PC advances (R182, R190; the spec's decision D18). -/
def Obligations.KeyWaitReportsPressedKey : Prop :=
  DecodesAs 0xF00A#16 0xF0FF#16 (fun w => .opFX0A (fieldX w)) ∧
  ∀ (s : State) (x : RegNo),
    ((∀ k : KeyNo, s.key[k] = false) → ∃ t, exec (.opFX0A x) s = .next t ∧ OnlyChanges (fun _ => False) s t) ∧
    ((∃ k : KeyNo, s.key[k] = true) → ∃ t, ∃ k : KeyNo, exec (.opFX0A x) s = .next t ∧ s.key[k] = true ∧
      (t.reg x).toNat = k.val ∧
      (s.cfg.keyPriority = .highest → ∀ j : KeyNo, s.key[j] = true → j ≤ k) ∧
      (s.cfg.keyPriority = .lowest → ∀ j : KeyNo, s.key[j] = true → k ≤ j) ∧
      t.pc.toNat = (s.pc.toNat + 2) % 65536 ∧ OnlyChanges (fun p => p = .pc ∨ p = .reg x) s t)

/-- R180, R183, R184: the three timer moves, before the cycle's tick. -/
def Obligations.TimerMoves : Prop :=
  DecodesAs 0xF007#16 0xF0FF#16 (fun w => .opFX07 (fieldX w)) ∧
  DecodesAs 0xF015#16 0xF0FF#16 (fun w => .opFX15 (fieldX w)) ∧
  DecodesAs 0xF018#16 0xF0FF#16 (fun w => .opFX18 (fieldX w)) ∧
  ∀ (s : State) (x : RegNo),
    (∃ t, exec (.opFX07 x) s = .next t ∧ t.reg x = s.dt ∧ t.pc.toNat = (s.pc.toNat + 2) % 65536 ∧
      OnlyChanges (fun p => p = .pc ∨ p = .reg x) s t) ∧
    (∃ t, exec (.opFX15 x) s = .next t ∧ t.dt = s.reg x ∧ t.pc.toNat = (s.pc.toNat + 2) % 65536 ∧
      OnlyChanges (fun p => p = .pc ∨ p = .dt) s t) ∧
    (∃ t, exec (.opFX18 x) s = .next t ∧ t.st = s.reg x ∧ t.pc.toNat = (s.pc.toNat + 2) % 65536 ∧
      OnlyChanges (fun p => p = .pc ∨ p = .st) s t)

/-- FX1E (R185; the spec's decisions D4, D11, D14). -/
def Obligations.AddIndexFlagsAbove0FFF : Prop :=
  DecodesAs 0xF01E#16 0xF0FF#16 (fun w => .opFX1E (fieldX w)) ∧
  ∀ (s : State) (x : RegNo), ∃ t, exec (.opFX1E x) s = .next t ∧
    t.i.toNat = (s.i.toNat + (s.reg x).toNat) % 65536 ∧
    t.reg 0xF = (if s.i.toNat + (s.reg x).toNat > 0x0FFF then 0x01#8 else 0x00#8) ∧
    t.pc.toNat = (s.pc.toNat + 2) % 65536 ∧ OnlyChanges (fun p => p = .pc ∨ p = .i ∨ p = .reg 0xF) s t

/-- R186: V[X] times 5, with no masking of V[X]. -/
def Obligations.GlyphPointerIsFiveTimes : Prop :=
  DecodesAs 0xF029#16 0xF0FF#16 (fun w => .opFX29 (fieldX w)) ∧
  ∀ (s : State) (x : RegNo), ∃ t, exec (.opFX29 x) s = .next t ∧ t.i.toNat = (s.reg x).toNat * 5 ∧
    t.pc.toNat = (s.pc.toNat + 2) % 65536 ∧ OnlyChanges (fun p => p = .pc ∨ p = .i) s t

/-- R187: the digits at I, I + 1, I + 2, each address reduced modulo 4096. -/
def Obligations.BcdStoresThreeDigits : Prop :=
  DecodesAs 0xF033#16 0xF0FF#16 (fun w => .opFX33 (fieldX w)) ∧
  ∀ (s : State) (x : RegNo), ∃ t, exec (.opFX33 x) s = .next t ∧
    (t.byteAt (effAddr s.i 0)).toNat = (s.reg x).toNat / 100 ∧
    (t.byteAt (effAddr s.i 1)).toNat = (s.reg x).toNat / 10 % 10 ∧
    (t.byteAt (effAddr s.i 2)).toNat = (s.reg x).toNat % 10 ∧
    t.pc.toNat = (s.pc.toNat + 2) % 65536 ∧
    OnlyChanges (fun p => p = .pc ∨ ∃ k < 3, p = .mem (effAddr s.i k)) s t

/-- R188: V[0] to V[X] at I to I + X, I advanced by X + 1, no register changed. -/
def Obligations.StoreRegistersBlock : Prop :=
  DecodesAs 0xF055#16 0xF0FF#16 (fun w => .opFX55 (fieldX w)) ∧
  ∀ (s : State) (x : RegNo), ∃ t, exec (.opFX55 x) s = .next t ∧
    (∀ k : RegNo, k ≤ x → t.byteAt (effAddr s.i k.val) = s.reg k) ∧
    t.i.toNat = (s.i.toNat + x.val + 1) % 65536 ∧ t.pc.toNat = (s.pc.toNat + 2) % 65536 ∧
    OnlyChanges (fun p => p = .pc ∨ p = .i ∨ ∃ k ≤ x.val, p = .mem (effAddr s.i k)) s t

/-- R189: V[0] to V[X] from I to I + X, I advanced by X + 1, memory and the registers above V[X] unchanged. -/
def Obligations.LoadRegistersBlock : Prop :=
  DecodesAs 0xF065#16 0xF0FF#16 (fun w => .opFX65 (fieldX w)) ∧
  ∀ (s : State) (x : RegNo), ∃ t, exec (.opFX65 x) s = .next t ∧
    (∀ k : RegNo, k ≤ x → t.reg k = s.byteAt (effAddr s.i k.val)) ∧
    t.i.toNat = (s.i.toNat + x.val + 1) % 65536 ∧ t.pc.toNat = (s.pc.toNat + 2) % 65536 ∧
    OnlyChanges (fun p => p = .pc ∨ p = .i ∨ ∃ k ≤ x, p = .reg k) s t

/-- FX55, then FX65 from the same I whatever the registers hold by then, gives V[0] to V[X] back (from R188 and R189). -/
def Obligations.StoreThenLoadRestores : Prop :=
  ∀ (s t u : State) (x : RegNo), exec (.opFX55 x) s = .next t →
    u.mem = t.mem → u.cfg = t.cfg → u.i = s.i →
    ∃ u', exec (.opFX65 x) u = .next u' ∧ (∀ k : RegNo, k ≤ x → u'.reg k = s.reg k) ∧ u'.i = t.i

/-! ### Timers and the beep -/

/-- TimerTick() (R222; the moment of the beep is the spec's decision D22). -/
def Obligations.TickCountsBothTimersDown : Prop :=
  ∀ s : State, s.timerTick.dt.toNat = (if s.dt.toNat > 0 then s.dt.toNat - 1 else 0) ∧
    s.timerTick.st.toNat = (if s.st.toNat > 0 then s.st.toNat - 1 else 0) ∧
    (s.timerTick.beep = true ↔ s.st.toNat = 1) ∧
    OnlyChanges (fun p => p = .dt ∨ p = .st ∨ p = .beep) s s.timerTick

/-- Over a whole cycle each timer is what it was, or what FX15 or FX18 of this cycle wrote, one lower
when `tick` is true and the cycle raised no fault; so between writes a timer never rises and falls by at most one (from R183,
R184, R223, R224; the spec's decision D3). -/
def Obligations.CycleTicksAfterTheInstruction : Prop :=
  ∀ s t : State, s.Ready → step s = .next t →
    t.dt.toNat = (if s.tickIn = true ∧ t.fault = .none then s.dtBeforeTick.toNat - 1 else s.dtBeforeTick.toNat) ∧
    t.st.toNat = (if s.tickIn = true ∧ t.fault = .none then s.stBeforeTick.toNat - 1 else s.stBeforeTick.toNat)

/-- `beep` is asserted in exactly those cycles whose tick finds ST = 1 (R225; the spec's decision D22). -/
def Obligations.BeepExactlyWhenTickLeavesOne : Prop :=
  ∀ s t : State, s.Ready → step s = .next t →
    (t.beep = true ↔ s.tickIn = true ∧ t.fault = .none ∧ s.stBeforeTick.toNat = 1)

/-! ### Who writes what -/

/-- An instruction changes memory only at the addresses it stores to (from R53 and R54). -/
def Obligations.MemoryChangesOnlyAtStores : Prop :=
  ∀ (i : Instr) (s t : State), exec i s = .next t → ∀ a, a ∉ storeAddrs i s → t.byteAt a = s.byteAt a

/-- Only 00E0 and DXYN change the framebuffer (from R39). -/
def Obligations.FramebufferWriters : Prop :=
  ∀ (i : Instr) (s t : State) (p : Pixel), exec i s = .next t → pixelOf t.fb p ≠ pixelOf s.fb p →
    i = .op00E0 ∨ ∃ x y n, i = .opDXYN x y n

/-- The registers each instruction may write; no other register changes (from R22 and R26). -/
def Obligations.RegisterWriters : Prop :=
  ∀ (i : Instr) (s t : State) (r : RegNo), exec i s = .next t → t.reg r ≠ s.reg r → writesReg i r

/-- Who may change I, SP and STACK, the timers, EXT and DIRTY; no instruction changes KEY or the
configuration, none clears DIRTY, none writes OPCODE or the outputs (from R27 to R34, R36, R37, R43). -/
def Obligations.ControlStateWriters : Prop :=
  ∀ (i : Instr) (s t : State), exec i s = .next t →
    (t.i ≠ s.i → (∃ nnn, i = .opANNN nnn) ∨ ∃ x, i = .opFX1E x ∨ i = .opFX29 x ∨ i = .opFX55 x ∨ i = .opFX65 x) ∧
    (t.sp ≠ s.sp → i = .op00EE ∨ ∃ nnn, i = .op2NNN nnn) ∧
    (t.stack ≠ s.stack → ∃ nnn, i = .op2NNN nnn) ∧
    (t.dt ≠ s.dt → ∃ x, i = .opFX15 x) ∧
    (t.st ≠ s.st → ∃ x, i = .opFX18 x) ∧
    (t.ext ≠ s.ext → i = .op00FE ∨ i = .op00FF) ∧
    (t.dirty ≠ s.dirty → t.dirty = true ∧ (i = .op00E0 ∨ ∃ x y n, i = .opDXYN x y n)) ∧
    t.key = s.key ∧ t.cfg = s.cfg ∧ t.opcode = s.opcode ∧ t.beep = s.beep ∧ t.diag = s.diag ∧ t.loadFailed = s.loadFailed

/-- Every outcome of PC, instruction by instruction, and for an unknown word (R24; the conditions of the skips from R112 to
R115, R170 and R171, the faults from R101, R111, R201 and R202). The depths that fault are the spec's decision D7, PC + 2 for
every unknown word is D9, the key V[X] mod 16 is D17 (R172); all three are of log entry 10. -/
def Obligations.PcOutcomes : Prop :=
  (∀ (i : Instr) (s t : State), exec i s = .next t →
    match i with
    | .op1NNN nnn => t.pc = zextAddr nnn
    | .op2NNN nnn => t.pc = (if s.sp.val = 16 then s.pc else zextAddr nnn)
    | .opBNNN nnn => t.pc = zextByte (s.reg 0) + zextAddr nnn
    | .op00EE => (s.sp.val = 0 → t.pc = s.pc) ∧ ∀ h : s.sp.val ≠ 0, t.pc = s.stack[s.sp.val - 1]'(by omega) + 2#16
    | .op3XNN x nn => t.pc = s.pc + (if s.reg x = nn then 4#16 else 2#16)
    | .op4XNN x nn => t.pc = s.pc + (if s.reg x = nn then 2#16 else 4#16)
    | .op5XY0 x y => t.pc = s.pc + (if s.reg x = s.reg y then 4#16 else 2#16)
    | .op9XY0 x y => t.pc = s.pc + (if s.reg x = s.reg y then 2#16 else 4#16)
    | .opEX9E x => t.pc = s.pc + (if s.key[keyNo (s.reg x)] = true then 4#16 else 2#16)
    | .opEXA1 x => t.pc = s.pc + (if s.key[keyNo (s.reg x)] = true then 2#16 else 4#16)
    | .opFX0A _ => t.pc = (if (∀ k : KeyNo, s.key[k] = false) then s.pc else s.pc + 2#16)
    | _ => t.pc = s.pc + 2#16) ∧
  ∀ (w : Word) (s : State), (execUnknown w s).pc = s.pc + 2#16

/-! ### Memory, the invariant, whole runs -/

/-- The model's form of memory (DESIGN CHOICE, log entry 5; from R38, R55): two canonical memories that read the same at every
address are the same list. -/
def Obligations.CanonicalMemoryIsItsReads : Prop :=
  ∀ (font : Vector Byte 80) (m m' : Memory), Memory.wf font m = true → Memory.wf font m' = true →
    (∀ a < 4096, Memory.read font m a = Memory.read font m' a) → m = m'

/-- Every step keeps the invariant (from R38, R200 to R206, R222, R225; the form of memory is the model's, log entry 5). -/
def Obligations.StepKeepsInvariant : Prop :=
  ∀ s t : State, s.Inv → step s = .next t → t.Inv

/-- Reset has the invariant (from R240). -/
def Obligations.ResetHasInvariant : Prop := State.reset.Inv

/-- In a run in which nothing goes wrong and every store stays in program space, the font and the reserved range
keep their reset contents to the end (from R57 and R251 (a); the spec's decision D21). -/
def Obligations.ReservedRangeSurvivesSafeRun : Prop :=
  ∀ (k : Nat) (s : State), (∀ a < 0x200, s.byteAt a = Memory.background s.cfg.font a) → SafeRun k s →
    ∃ t, Sys2Proof.core.run k s = .next t ∧ ∀ a < 0x200, t.byteAt a = Memory.background s.cfg.font a

/-- Once PC stands at a self-jump, a cycle changes only OPCODE, the timers and the record of the outputs, and PC
stands there again (from R249; the spec's decision D30). -/
def Obligations.SelfJumpIsTheEnd : Prop :=
  ∀ s : State, s.Ready → s.AtSelfJump → ∃ t, step s = .next t ∧ t.AtSelfJump ∧ t.fault = .none ∧
    OnlyChanges (fun p => p = .opcode ∨ p = .dt ∨ p = .st ∨ p = .beep ∨ p = .diag ∨ p = .host ∨ p = .draws) s t

/-- A store is seen by the very next fetch: after FX55 at I = PC + 2, V[0] and V[1] are the next instruction word (from R63,
which the spec derives from R50, R55 and R60). -/
def Obligations.StoreIsSeenByNextFetch : Prop :=
  ∀ (s t : State) (x : RegNo), exec (.opFX55 x) s = .next t → 1 ≤ x.val → s.i.toNat = (s.pc.toNat + 2) % 65536 →
    t.fetchWord.toNat = 256 * (s.reg 0).toNat + (s.reg 1).toNat
end

