-- ==== Sys2Proof/Laws/State.lean ====
section
/-! SUPPORT. One lemma per field per update of the state, each true by rfl: no later proof unfolds a record update. -/

namespace Sys2Proof.Machine

variable (s : State)

@[simp] theorem State.setMem_v (m : Memory) : (s.setMem m).v = s.v := rfl
@[simp] theorem State.setMem_pc (m : Memory) : (s.setMem m).pc = s.pc := rfl
@[simp] theorem State.setMem_i (m : Memory) : (s.setMem m).i = s.i := rfl
@[simp] theorem State.setMem_sp (m : Memory) : (s.setMem m).sp = s.sp := rfl
@[simp] theorem State.setMem_stack (m : Memory) : (s.setMem m).stack = s.stack := rfl
@[simp] theorem State.setMem_dt (m : Memory) : (s.setMem m).dt = s.dt := rfl
@[simp] theorem State.setMem_st (m : Memory) : (s.setMem m).st = s.st := rfl
@[simp] theorem State.setMem_ext (m : Memory) : (s.setMem m).ext = s.ext := rfl
@[simp] theorem State.setMem_dirty (m : Memory) : (s.setMem m).dirty = s.dirty := rfl
@[simp] theorem State.setMem_opcode (m : Memory) : (s.setMem m).opcode = s.opcode := rfl
@[simp] theorem State.setMem_fault (m : Memory) : (s.setMem m).fault = s.fault := rfl
@[simp] theorem State.setMem_key (m : Memory) : (s.setMem m).key = s.key := rfl
@[simp] theorem State.setMem_mem (m : Memory) : (s.setMem m).mem = m := rfl
@[simp] theorem State.setMem_fb (m : Memory) : (s.setMem m).fb = s.fb := rfl
@[simp] theorem State.setMem_beep (m : Memory) : (s.setMem m).beep = s.beep := rfl
@[simp] theorem State.setMem_diag (m : Memory) : (s.setMem m).diag = s.diag := rfl
@[simp] theorem State.setMem_cfg (m : Memory) : (s.setMem m).cfg = s.cfg := rfl
@[simp] theorem State.setMem_host (m : Memory) : (s.setMem m).host = s.host := rfl
@[simp] theorem State.setMem_draws (m : Memory) : (s.setMem m).draws = s.draws := rfl
@[simp] theorem State.setMem_loadFailed (m : Memory) : (s.setMem m).loadFailed = s.loadFailed := rfl

@[simp] theorem State.setReg_v (r : RegNo) (b : Byte) : (s.setReg r b).v = s.v.set r b := rfl
@[simp] theorem State.setReg_pc (r : RegNo) (b : Byte) : (s.setReg r b).pc = s.pc := rfl
@[simp] theorem State.setReg_i (r : RegNo) (b : Byte) : (s.setReg r b).i = s.i := rfl
@[simp] theorem State.setReg_sp (r : RegNo) (b : Byte) : (s.setReg r b).sp = s.sp := rfl
@[simp] theorem State.setReg_stack (r : RegNo) (b : Byte) : (s.setReg r b).stack = s.stack := rfl
@[simp] theorem State.setReg_dt (r : RegNo) (b : Byte) : (s.setReg r b).dt = s.dt := rfl
@[simp] theorem State.setReg_st (r : RegNo) (b : Byte) : (s.setReg r b).st = s.st := rfl
@[simp] theorem State.setReg_ext (r : RegNo) (b : Byte) : (s.setReg r b).ext = s.ext := rfl
@[simp] theorem State.setReg_dirty (r : RegNo) (b : Byte) : (s.setReg r b).dirty = s.dirty := rfl
@[simp] theorem State.setReg_opcode (r : RegNo) (b : Byte) : (s.setReg r b).opcode = s.opcode := rfl
@[simp] theorem State.setReg_fault (r : RegNo) (b : Byte) : (s.setReg r b).fault = s.fault := rfl
@[simp] theorem State.setReg_key (r : RegNo) (b : Byte) : (s.setReg r b).key = s.key := rfl
@[simp] theorem State.setReg_mem (r : RegNo) (b : Byte) : (s.setReg r b).mem = s.mem := rfl
@[simp] theorem State.setReg_fb (r : RegNo) (b : Byte) : (s.setReg r b).fb = s.fb := rfl
@[simp] theorem State.setReg_beep (r : RegNo) (b : Byte) : (s.setReg r b).beep = s.beep := rfl
@[simp] theorem State.setReg_diag (r : RegNo) (b : Byte) : (s.setReg r b).diag = s.diag := rfl
@[simp] theorem State.setReg_cfg (r : RegNo) (b : Byte) : (s.setReg r b).cfg = s.cfg := rfl
@[simp] theorem State.setReg_host (r : RegNo) (b : Byte) : (s.setReg r b).host = s.host := rfl
@[simp] theorem State.setReg_draws (r : RegNo) (b : Byte) : (s.setReg r b).draws = s.draws := rfl
@[simp] theorem State.setReg_loadFailed (r : RegNo) (b : Byte) : (s.setReg r b).loadFailed = s.loadFailed := rfl

@[simp] theorem State.setPc_v (p : Word) : (s.setPc p).v = s.v := rfl
@[simp] theorem State.setPc_pc (p : Word) : (s.setPc p).pc = p := rfl
@[simp] theorem State.setPc_i (p : Word) : (s.setPc p).i = s.i := rfl
@[simp] theorem State.setPc_sp (p : Word) : (s.setPc p).sp = s.sp := rfl
@[simp] theorem State.setPc_stack (p : Word) : (s.setPc p).stack = s.stack := rfl
@[simp] theorem State.setPc_dt (p : Word) : (s.setPc p).dt = s.dt := rfl
@[simp] theorem State.setPc_st (p : Word) : (s.setPc p).st = s.st := rfl
@[simp] theorem State.setPc_ext (p : Word) : (s.setPc p).ext = s.ext := rfl
@[simp] theorem State.setPc_dirty (p : Word) : (s.setPc p).dirty = s.dirty := rfl
@[simp] theorem State.setPc_opcode (p : Word) : (s.setPc p).opcode = s.opcode := rfl
@[simp] theorem State.setPc_fault (p : Word) : (s.setPc p).fault = s.fault := rfl
@[simp] theorem State.setPc_key (p : Word) : (s.setPc p).key = s.key := rfl
@[simp] theorem State.setPc_mem (p : Word) : (s.setPc p).mem = s.mem := rfl
@[simp] theorem State.setPc_fb (p : Word) : (s.setPc p).fb = s.fb := rfl
@[simp] theorem State.setPc_beep (p : Word) : (s.setPc p).beep = s.beep := rfl
@[simp] theorem State.setPc_diag (p : Word) : (s.setPc p).diag = s.diag := rfl
@[simp] theorem State.setPc_cfg (p : Word) : (s.setPc p).cfg = s.cfg := rfl
@[simp] theorem State.setPc_host (p : Word) : (s.setPc p).host = s.host := rfl
@[simp] theorem State.setPc_draws (p : Word) : (s.setPc p).draws = s.draws := rfl
@[simp] theorem State.setPc_loadFailed (p : Word) : (s.setPc p).loadFailed = s.loadFailed := rfl

@[simp] theorem State.setI_v (w : Word) : (s.setI w).v = s.v := rfl
@[simp] theorem State.setI_pc (w : Word) : (s.setI w).pc = s.pc := rfl
@[simp] theorem State.setI_i (w : Word) : (s.setI w).i = w := rfl
@[simp] theorem State.setI_sp (w : Word) : (s.setI w).sp = s.sp := rfl
@[simp] theorem State.setI_stack (w : Word) : (s.setI w).stack = s.stack := rfl
@[simp] theorem State.setI_dt (w : Word) : (s.setI w).dt = s.dt := rfl
@[simp] theorem State.setI_st (w : Word) : (s.setI w).st = s.st := rfl
@[simp] theorem State.setI_ext (w : Word) : (s.setI w).ext = s.ext := rfl
@[simp] theorem State.setI_dirty (w : Word) : (s.setI w).dirty = s.dirty := rfl
@[simp] theorem State.setI_opcode (w : Word) : (s.setI w).opcode = s.opcode := rfl
@[simp] theorem State.setI_fault (w : Word) : (s.setI w).fault = s.fault := rfl
@[simp] theorem State.setI_key (w : Word) : (s.setI w).key = s.key := rfl
@[simp] theorem State.setI_mem (w : Word) : (s.setI w).mem = s.mem := rfl
@[simp] theorem State.setI_fb (w : Word) : (s.setI w).fb = s.fb := rfl
@[simp] theorem State.setI_beep (w : Word) : (s.setI w).beep = s.beep := rfl
@[simp] theorem State.setI_diag (w : Word) : (s.setI w).diag = s.diag := rfl
@[simp] theorem State.setI_cfg (w : Word) : (s.setI w).cfg = s.cfg := rfl
@[simp] theorem State.setI_host (w : Word) : (s.setI w).host = s.host := rfl
@[simp] theorem State.setI_draws (w : Word) : (s.setI w).draws = s.draws := rfl
@[simp] theorem State.setI_loadFailed (w : Word) : (s.setI w).loadFailed = s.loadFailed := rfl

@[simp] theorem State.setDt_v (b : Byte) : (s.setDt b).v = s.v := rfl
@[simp] theorem State.setDt_pc (b : Byte) : (s.setDt b).pc = s.pc := rfl
@[simp] theorem State.setDt_i (b : Byte) : (s.setDt b).i = s.i := rfl
@[simp] theorem State.setDt_sp (b : Byte) : (s.setDt b).sp = s.sp := rfl
@[simp] theorem State.setDt_stack (b : Byte) : (s.setDt b).stack = s.stack := rfl
@[simp] theorem State.setDt_dt (b : Byte) : (s.setDt b).dt = b := rfl
@[simp] theorem State.setDt_st (b : Byte) : (s.setDt b).st = s.st := rfl
@[simp] theorem State.setDt_ext (b : Byte) : (s.setDt b).ext = s.ext := rfl
@[simp] theorem State.setDt_dirty (b : Byte) : (s.setDt b).dirty = s.dirty := rfl
@[simp] theorem State.setDt_opcode (b : Byte) : (s.setDt b).opcode = s.opcode := rfl
@[simp] theorem State.setDt_fault (b : Byte) : (s.setDt b).fault = s.fault := rfl
@[simp] theorem State.setDt_key (b : Byte) : (s.setDt b).key = s.key := rfl
@[simp] theorem State.setDt_mem (b : Byte) : (s.setDt b).mem = s.mem := rfl
@[simp] theorem State.setDt_fb (b : Byte) : (s.setDt b).fb = s.fb := rfl
@[simp] theorem State.setDt_beep (b : Byte) : (s.setDt b).beep = s.beep := rfl
@[simp] theorem State.setDt_diag (b : Byte) : (s.setDt b).diag = s.diag := rfl
@[simp] theorem State.setDt_cfg (b : Byte) : (s.setDt b).cfg = s.cfg := rfl
@[simp] theorem State.setDt_host (b : Byte) : (s.setDt b).host = s.host := rfl
@[simp] theorem State.setDt_draws (b : Byte) : (s.setDt b).draws = s.draws := rfl
@[simp] theorem State.setDt_loadFailed (b : Byte) : (s.setDt b).loadFailed = s.loadFailed := rfl

@[simp] theorem State.setSt_v (b : Byte) : (s.setSt b).v = s.v := rfl
@[simp] theorem State.setSt_pc (b : Byte) : (s.setSt b).pc = s.pc := rfl
@[simp] theorem State.setSt_i (b : Byte) : (s.setSt b).i = s.i := rfl
@[simp] theorem State.setSt_sp (b : Byte) : (s.setSt b).sp = s.sp := rfl
@[simp] theorem State.setSt_stack (b : Byte) : (s.setSt b).stack = s.stack := rfl
@[simp] theorem State.setSt_dt (b : Byte) : (s.setSt b).dt = s.dt := rfl
@[simp] theorem State.setSt_st (b : Byte) : (s.setSt b).st = b := rfl
@[simp] theorem State.setSt_ext (b : Byte) : (s.setSt b).ext = s.ext := rfl
@[simp] theorem State.setSt_dirty (b : Byte) : (s.setSt b).dirty = s.dirty := rfl
@[simp] theorem State.setSt_opcode (b : Byte) : (s.setSt b).opcode = s.opcode := rfl
@[simp] theorem State.setSt_fault (b : Byte) : (s.setSt b).fault = s.fault := rfl
@[simp] theorem State.setSt_key (b : Byte) : (s.setSt b).key = s.key := rfl
@[simp] theorem State.setSt_mem (b : Byte) : (s.setSt b).mem = s.mem := rfl
@[simp] theorem State.setSt_fb (b : Byte) : (s.setSt b).fb = s.fb := rfl
@[simp] theorem State.setSt_beep (b : Byte) : (s.setSt b).beep = s.beep := rfl
@[simp] theorem State.setSt_diag (b : Byte) : (s.setSt b).diag = s.diag := rfl
@[simp] theorem State.setSt_cfg (b : Byte) : (s.setSt b).cfg = s.cfg := rfl
@[simp] theorem State.setSt_host (b : Byte) : (s.setSt b).host = s.host := rfl
@[simp] theorem State.setSt_draws (b : Byte) : (s.setSt b).draws = s.draws := rfl
@[simp] theorem State.setSt_loadFailed (b : Byte) : (s.setSt b).loadFailed = s.loadFailed := rfl

@[simp] theorem State.setExt_v (e : Bool) : (s.setExt e).v = s.v := rfl
@[simp] theorem State.setExt_pc (e : Bool) : (s.setExt e).pc = s.pc := rfl
@[simp] theorem State.setExt_i (e : Bool) : (s.setExt e).i = s.i := rfl
@[simp] theorem State.setExt_sp (e : Bool) : (s.setExt e).sp = s.sp := rfl
@[simp] theorem State.setExt_stack (e : Bool) : (s.setExt e).stack = s.stack := rfl
@[simp] theorem State.setExt_dt (e : Bool) : (s.setExt e).dt = s.dt := rfl
@[simp] theorem State.setExt_st (e : Bool) : (s.setExt e).st = s.st := rfl
@[simp] theorem State.setExt_ext (e : Bool) : (s.setExt e).ext = e := rfl
@[simp] theorem State.setExt_dirty (e : Bool) : (s.setExt e).dirty = s.dirty := rfl
@[simp] theorem State.setExt_opcode (e : Bool) : (s.setExt e).opcode = s.opcode := rfl
@[simp] theorem State.setExt_fault (e : Bool) : (s.setExt e).fault = s.fault := rfl
@[simp] theorem State.setExt_key (e : Bool) : (s.setExt e).key = s.key := rfl
@[simp] theorem State.setExt_mem (e : Bool) : (s.setExt e).mem = s.mem := rfl
@[simp] theorem State.setExt_fb (e : Bool) : (s.setExt e).fb = s.fb := rfl
@[simp] theorem State.setExt_beep (e : Bool) : (s.setExt e).beep = s.beep := rfl
@[simp] theorem State.setExt_diag (e : Bool) : (s.setExt e).diag = s.diag := rfl
@[simp] theorem State.setExt_cfg (e : Bool) : (s.setExt e).cfg = s.cfg := rfl
@[simp] theorem State.setExt_host (e : Bool) : (s.setExt e).host = s.host := rfl
@[simp] theorem State.setExt_draws (e : Bool) : (s.setExt e).draws = s.draws := rfl
@[simp] theorem State.setExt_loadFailed (e : Bool) : (s.setExt e).loadFailed = s.loadFailed := rfl

@[simp] theorem State.setDirty_v (d : Bool) : (s.setDirty d).v = s.v := rfl
@[simp] theorem State.setDirty_pc (d : Bool) : (s.setDirty d).pc = s.pc := rfl
@[simp] theorem State.setDirty_i (d : Bool) : (s.setDirty d).i = s.i := rfl
@[simp] theorem State.setDirty_sp (d : Bool) : (s.setDirty d).sp = s.sp := rfl
@[simp] theorem State.setDirty_stack (d : Bool) : (s.setDirty d).stack = s.stack := rfl
@[simp] theorem State.setDirty_dt (d : Bool) : (s.setDirty d).dt = s.dt := rfl
@[simp] theorem State.setDirty_st (d : Bool) : (s.setDirty d).st = s.st := rfl
@[simp] theorem State.setDirty_ext (d : Bool) : (s.setDirty d).ext = s.ext := rfl
@[simp] theorem State.setDirty_dirty (d : Bool) : (s.setDirty d).dirty = d := rfl
@[simp] theorem State.setDirty_opcode (d : Bool) : (s.setDirty d).opcode = s.opcode := rfl
@[simp] theorem State.setDirty_fault (d : Bool) : (s.setDirty d).fault = s.fault := rfl
@[simp] theorem State.setDirty_key (d : Bool) : (s.setDirty d).key = s.key := rfl
@[simp] theorem State.setDirty_mem (d : Bool) : (s.setDirty d).mem = s.mem := rfl
@[simp] theorem State.setDirty_fb (d : Bool) : (s.setDirty d).fb = s.fb := rfl
@[simp] theorem State.setDirty_beep (d : Bool) : (s.setDirty d).beep = s.beep := rfl
@[simp] theorem State.setDirty_diag (d : Bool) : (s.setDirty d).diag = s.diag := rfl
@[simp] theorem State.setDirty_cfg (d : Bool) : (s.setDirty d).cfg = s.cfg := rfl
@[simp] theorem State.setDirty_host (d : Bool) : (s.setDirty d).host = s.host := rfl
@[simp] theorem State.setDirty_draws (d : Bool) : (s.setDirty d).draws = s.draws := rfl
@[simp] theorem State.setDirty_loadFailed (d : Bool) : (s.setDirty d).loadFailed = s.loadFailed := rfl

@[simp] theorem State.setOpcode_v (w : Word) : (s.setOpcode w).v = s.v := rfl
@[simp] theorem State.setOpcode_pc (w : Word) : (s.setOpcode w).pc = s.pc := rfl
@[simp] theorem State.setOpcode_i (w : Word) : (s.setOpcode w).i = s.i := rfl
@[simp] theorem State.setOpcode_sp (w : Word) : (s.setOpcode w).sp = s.sp := rfl
@[simp] theorem State.setOpcode_stack (w : Word) : (s.setOpcode w).stack = s.stack := rfl
@[simp] theorem State.setOpcode_dt (w : Word) : (s.setOpcode w).dt = s.dt := rfl
@[simp] theorem State.setOpcode_st (w : Word) : (s.setOpcode w).st = s.st := rfl
@[simp] theorem State.setOpcode_ext (w : Word) : (s.setOpcode w).ext = s.ext := rfl
@[simp] theorem State.setOpcode_dirty (w : Word) : (s.setOpcode w).dirty = s.dirty := rfl
@[simp] theorem State.setOpcode_opcode (w : Word) : (s.setOpcode w).opcode = w := rfl
@[simp] theorem State.setOpcode_fault (w : Word) : (s.setOpcode w).fault = s.fault := rfl
@[simp] theorem State.setOpcode_key (w : Word) : (s.setOpcode w).key = s.key := rfl
@[simp] theorem State.setOpcode_mem (w : Word) : (s.setOpcode w).mem = s.mem := rfl
@[simp] theorem State.setOpcode_fb (w : Word) : (s.setOpcode w).fb = s.fb := rfl
@[simp] theorem State.setOpcode_beep (w : Word) : (s.setOpcode w).beep = s.beep := rfl
@[simp] theorem State.setOpcode_diag (w : Word) : (s.setOpcode w).diag = s.diag := rfl
@[simp] theorem State.setOpcode_cfg (w : Word) : (s.setOpcode w).cfg = s.cfg := rfl
@[simp] theorem State.setOpcode_host (w : Word) : (s.setOpcode w).host = s.host := rfl
@[simp] theorem State.setOpcode_draws (w : Word) : (s.setOpcode w).draws = s.draws := rfl
@[simp] theorem State.setOpcode_loadFailed (w : Word) : (s.setOpcode w).loadFailed = s.loadFailed := rfl

@[simp] theorem State.setKey_v (k : KeyNo) (b : Bool) : (s.setKey k b).v = s.v := rfl
@[simp] theorem State.setKey_pc (k : KeyNo) (b : Bool) : (s.setKey k b).pc = s.pc := rfl
@[simp] theorem State.setKey_i (k : KeyNo) (b : Bool) : (s.setKey k b).i = s.i := rfl
@[simp] theorem State.setKey_sp (k : KeyNo) (b : Bool) : (s.setKey k b).sp = s.sp := rfl
@[simp] theorem State.setKey_stack (k : KeyNo) (b : Bool) : (s.setKey k b).stack = s.stack := rfl
@[simp] theorem State.setKey_dt (k : KeyNo) (b : Bool) : (s.setKey k b).dt = s.dt := rfl
@[simp] theorem State.setKey_st (k : KeyNo) (b : Bool) : (s.setKey k b).st = s.st := rfl
@[simp] theorem State.setKey_ext (k : KeyNo) (b : Bool) : (s.setKey k b).ext = s.ext := rfl
@[simp] theorem State.setKey_dirty (k : KeyNo) (b : Bool) : (s.setKey k b).dirty = s.dirty := rfl
@[simp] theorem State.setKey_opcode (k : KeyNo) (b : Bool) : (s.setKey k b).opcode = s.opcode := rfl
@[simp] theorem State.setKey_fault (k : KeyNo) (b : Bool) : (s.setKey k b).fault = s.fault := rfl
@[simp] theorem State.setKey_key (k : KeyNo) (b : Bool) : (s.setKey k b).key = s.key.set k b := rfl
@[simp] theorem State.setKey_mem (k : KeyNo) (b : Bool) : (s.setKey k b).mem = s.mem := rfl
@[simp] theorem State.setKey_fb (k : KeyNo) (b : Bool) : (s.setKey k b).fb = s.fb := rfl
@[simp] theorem State.setKey_beep (k : KeyNo) (b : Bool) : (s.setKey k b).beep = s.beep := rfl
@[simp] theorem State.setKey_diag (k : KeyNo) (b : Bool) : (s.setKey k b).diag = s.diag := rfl
@[simp] theorem State.setKey_cfg (k : KeyNo) (b : Bool) : (s.setKey k b).cfg = s.cfg := rfl
@[simp] theorem State.setKey_host (k : KeyNo) (b : Bool) : (s.setKey k b).host = s.host := rfl
@[simp] theorem State.setKey_draws (k : KeyNo) (b : Bool) : (s.setKey k b).draws = s.draws := rfl
@[simp] theorem State.setKey_loadFailed (k : KeyNo) (b : Bool) : (s.setKey k b).loadFailed = s.loadFailed := rfl

@[simp] theorem State.setOutputs_v (b : Bool) (d : Option Word) : (s.setOutputs b d).v = s.v := rfl
@[simp] theorem State.setOutputs_pc (b : Bool) (d : Option Word) : (s.setOutputs b d).pc = s.pc := rfl
@[simp] theorem State.setOutputs_i (b : Bool) (d : Option Word) : (s.setOutputs b d).i = s.i := rfl
@[simp] theorem State.setOutputs_sp (b : Bool) (d : Option Word) : (s.setOutputs b d).sp = s.sp := rfl
@[simp] theorem State.setOutputs_stack (b : Bool) (d : Option Word) : (s.setOutputs b d).stack = s.stack := rfl
@[simp] theorem State.setOutputs_dt (b : Bool) (d : Option Word) : (s.setOutputs b d).dt = s.dt := rfl
@[simp] theorem State.setOutputs_st (b : Bool) (d : Option Word) : (s.setOutputs b d).st = s.st := rfl
@[simp] theorem State.setOutputs_ext (b : Bool) (d : Option Word) : (s.setOutputs b d).ext = s.ext := rfl
@[simp] theorem State.setOutputs_dirty (b : Bool) (d : Option Word) : (s.setOutputs b d).dirty = s.dirty := rfl
@[simp] theorem State.setOutputs_opcode (b : Bool) (d : Option Word) : (s.setOutputs b d).opcode = s.opcode := rfl
@[simp] theorem State.setOutputs_fault (b : Bool) (d : Option Word) : (s.setOutputs b d).fault = s.fault := rfl
@[simp] theorem State.setOutputs_key (b : Bool) (d : Option Word) : (s.setOutputs b d).key = s.key := rfl
@[simp] theorem State.setOutputs_mem (b : Bool) (d : Option Word) : (s.setOutputs b d).mem = s.mem := rfl
@[simp] theorem State.setOutputs_fb (b : Bool) (d : Option Word) : (s.setOutputs b d).fb = s.fb := rfl
@[simp] theorem State.setOutputs_beep (b : Bool) (d : Option Word) : (s.setOutputs b d).beep = b := rfl
@[simp] theorem State.setOutputs_diag (b : Bool) (d : Option Word) : (s.setOutputs b d).diag = d := rfl
@[simp] theorem State.setOutputs_cfg (b : Bool) (d : Option Word) : (s.setOutputs b d).cfg = s.cfg := rfl
@[simp] theorem State.setOutputs_host (b : Bool) (d : Option Word) : (s.setOutputs b d).host = s.host := rfl
@[simp] theorem State.setOutputs_draws (b : Bool) (d : Option Word) : (s.setOutputs b d).draws = s.draws := rfl
@[simp] theorem State.setOutputs_loadFailed (b : Bool) (d : Option Word) : (s.setOutputs b d).loadFailed = s.loadFailed := rfl

@[simp] theorem State.setHost_v (h : List HostEvent) (n : Nat) : (s.setHost h n).v = s.v := rfl
@[simp] theorem State.setHost_pc (h : List HostEvent) (n : Nat) : (s.setHost h n).pc = s.pc := rfl
@[simp] theorem State.setHost_i (h : List HostEvent) (n : Nat) : (s.setHost h n).i = s.i := rfl
@[simp] theorem State.setHost_sp (h : List HostEvent) (n : Nat) : (s.setHost h n).sp = s.sp := rfl
@[simp] theorem State.setHost_stack (h : List HostEvent) (n : Nat) : (s.setHost h n).stack = s.stack := rfl
@[simp] theorem State.setHost_dt (h : List HostEvent) (n : Nat) : (s.setHost h n).dt = s.dt := rfl
@[simp] theorem State.setHost_st (h : List HostEvent) (n : Nat) : (s.setHost h n).st = s.st := rfl
@[simp] theorem State.setHost_ext (h : List HostEvent) (n : Nat) : (s.setHost h n).ext = s.ext := rfl
@[simp] theorem State.setHost_dirty (h : List HostEvent) (n : Nat) : (s.setHost h n).dirty = s.dirty := rfl
@[simp] theorem State.setHost_opcode (h : List HostEvent) (n : Nat) : (s.setHost h n).opcode = s.opcode := rfl
@[simp] theorem State.setHost_fault (h : List HostEvent) (n : Nat) : (s.setHost h n).fault = s.fault := rfl
@[simp] theorem State.setHost_key (h : List HostEvent) (n : Nat) : (s.setHost h n).key = s.key := rfl
@[simp] theorem State.setHost_mem (h : List HostEvent) (n : Nat) : (s.setHost h n).mem = s.mem := rfl
@[simp] theorem State.setHost_fb (h : List HostEvent) (n : Nat) : (s.setHost h n).fb = s.fb := rfl
@[simp] theorem State.setHost_beep (h : List HostEvent) (n : Nat) : (s.setHost h n).beep = s.beep := rfl
@[simp] theorem State.setHost_diag (h : List HostEvent) (n : Nat) : (s.setHost h n).diag = s.diag := rfl
@[simp] theorem State.setHost_cfg (h : List HostEvent) (n : Nat) : (s.setHost h n).cfg = s.cfg := rfl
@[simp] theorem State.setHost_host (h : List HostEvent) (n : Nat) : (s.setHost h n).host = h := rfl
@[simp] theorem State.setHost_draws (h : List HostEvent) (n : Nat) : (s.setHost h n).draws = n := rfl
@[simp] theorem State.setHost_loadFailed (h : List HostEvent) (n : Nat) : (s.setHost h n).loadFailed = s.loadFailed := rfl

@[simp] theorem State.setLoadFailed_v (b : Bool) : (s.setLoadFailed b).v = s.v := rfl
@[simp] theorem State.setLoadFailed_pc (b : Bool) : (s.setLoadFailed b).pc = s.pc := rfl
@[simp] theorem State.setLoadFailed_i (b : Bool) : (s.setLoadFailed b).i = s.i := rfl
@[simp] theorem State.setLoadFailed_sp (b : Bool) : (s.setLoadFailed b).sp = s.sp := rfl
@[simp] theorem State.setLoadFailed_stack (b : Bool) : (s.setLoadFailed b).stack = s.stack := rfl
@[simp] theorem State.setLoadFailed_dt (b : Bool) : (s.setLoadFailed b).dt = s.dt := rfl
@[simp] theorem State.setLoadFailed_st (b : Bool) : (s.setLoadFailed b).st = s.st := rfl
@[simp] theorem State.setLoadFailed_ext (b : Bool) : (s.setLoadFailed b).ext = s.ext := rfl
@[simp] theorem State.setLoadFailed_dirty (b : Bool) : (s.setLoadFailed b).dirty = s.dirty := rfl
@[simp] theorem State.setLoadFailed_opcode (b : Bool) : (s.setLoadFailed b).opcode = s.opcode := rfl
@[simp] theorem State.setLoadFailed_fault (b : Bool) : (s.setLoadFailed b).fault = s.fault := rfl
@[simp] theorem State.setLoadFailed_key (b : Bool) : (s.setLoadFailed b).key = s.key := rfl
@[simp] theorem State.setLoadFailed_mem (b : Bool) : (s.setLoadFailed b).mem = s.mem := rfl
@[simp] theorem State.setLoadFailed_fb (b : Bool) : (s.setLoadFailed b).fb = s.fb := rfl
@[simp] theorem State.setLoadFailed_beep (b : Bool) : (s.setLoadFailed b).beep = s.beep := rfl
@[simp] theorem State.setLoadFailed_diag (b : Bool) : (s.setLoadFailed b).diag = s.diag := rfl
@[simp] theorem State.setLoadFailed_cfg (b : Bool) : (s.setLoadFailed b).cfg = s.cfg := rfl
@[simp] theorem State.setLoadFailed_host (b : Bool) : (s.setLoadFailed b).host = s.host := rfl
@[simp] theorem State.setLoadFailed_draws (b : Bool) : (s.setLoadFailed b).draws = s.draws := rfl
@[simp] theorem State.setLoadFailed_loadFailed (b : Bool) : (s.setLoadFailed b).loadFailed = b := rfl

@[simp] theorem State.setStack_v (k : Vector Word 16) (p : Fin 17) : (s.setStack k p).v = s.v := rfl
@[simp] theorem State.setStack_pc (k : Vector Word 16) (p : Fin 17) : (s.setStack k p).pc = s.pc := rfl
@[simp] theorem State.setStack_i (k : Vector Word 16) (p : Fin 17) : (s.setStack k p).i = s.i := rfl
@[simp] theorem State.setStack_sp (k : Vector Word 16) (p : Fin 17) : (s.setStack k p).sp = p := rfl
@[simp] theorem State.setStack_stack (k : Vector Word 16) (p : Fin 17) : (s.setStack k p).stack = k := rfl
@[simp] theorem State.setStack_dt (k : Vector Word 16) (p : Fin 17) : (s.setStack k p).dt = s.dt := rfl
@[simp] theorem State.setStack_st (k : Vector Word 16) (p : Fin 17) : (s.setStack k p).st = s.st := rfl
@[simp] theorem State.setStack_ext (k : Vector Word 16) (p : Fin 17) : (s.setStack k p).ext = s.ext := rfl
@[simp] theorem State.setStack_dirty (k : Vector Word 16) (p : Fin 17) : (s.setStack k p).dirty = s.dirty := rfl
@[simp] theorem State.setStack_opcode (k : Vector Word 16) (p : Fin 17) : (s.setStack k p).opcode = s.opcode := rfl
@[simp] theorem State.setStack_fault (k : Vector Word 16) (p : Fin 17) : (s.setStack k p).fault = s.fault := rfl
@[simp] theorem State.setStack_key (k : Vector Word 16) (p : Fin 17) : (s.setStack k p).key = s.key := rfl
@[simp] theorem State.setStack_mem (k : Vector Word 16) (p : Fin 17) : (s.setStack k p).mem = s.mem := rfl
@[simp] theorem State.setStack_fb (k : Vector Word 16) (p : Fin 17) : (s.setStack k p).fb = s.fb := rfl
@[simp] theorem State.setStack_beep (k : Vector Word 16) (p : Fin 17) : (s.setStack k p).beep = s.beep := rfl
@[simp] theorem State.setStack_diag (k : Vector Word 16) (p : Fin 17) : (s.setStack k p).diag = s.diag := rfl
@[simp] theorem State.setStack_cfg (k : Vector Word 16) (p : Fin 17) : (s.setStack k p).cfg = s.cfg := rfl
@[simp] theorem State.setStack_host (k : Vector Word 16) (p : Fin 17) : (s.setStack k p).host = s.host := rfl
@[simp] theorem State.setStack_draws (k : Vector Word 16) (p : Fin 17) : (s.setStack k p).draws = s.draws := rfl
@[simp] theorem State.setStack_loadFailed (k : Vector Word 16) (p : Fin 17) : (s.setStack k p).loadFailed = s.loadFailed := rfl

@[simp] theorem State.setFault_v (c : FaultCode) : (s.setFault c).v = s.v := rfl
@[simp] theorem State.setFault_pc (c : FaultCode) : (s.setFault c).pc = s.pc := rfl
@[simp] theorem State.setFault_i (c : FaultCode) : (s.setFault c).i = s.i := rfl
@[simp] theorem State.setFault_sp (c : FaultCode) : (s.setFault c).sp = s.sp := rfl
@[simp] theorem State.setFault_stack (c : FaultCode) : (s.setFault c).stack = s.stack := rfl
@[simp] theorem State.setFault_dt (c : FaultCode) : (s.setFault c).dt = s.dt := rfl
@[simp] theorem State.setFault_st (c : FaultCode) : (s.setFault c).st = s.st := rfl
@[simp] theorem State.setFault_ext (c : FaultCode) : (s.setFault c).ext = s.ext := rfl
@[simp] theorem State.setFault_dirty (c : FaultCode) : (s.setFault c).dirty = s.dirty := rfl
@[simp] theorem State.setFault_opcode (c : FaultCode) : (s.setFault c).opcode = s.opcode := rfl
@[simp] theorem State.setFault_fault (c : FaultCode) : (s.setFault c).fault = c := rfl
@[simp] theorem State.setFault_key (c : FaultCode) : (s.setFault c).key = s.key := rfl
@[simp] theorem State.setFault_mem (c : FaultCode) : (s.setFault c).mem = s.mem := rfl
@[simp] theorem State.setFault_fb (c : FaultCode) : (s.setFault c).fb = s.fb := rfl
@[simp] theorem State.setFault_beep (c : FaultCode) : (s.setFault c).beep = s.beep := rfl
@[simp] theorem State.setFault_diag (c : FaultCode) : (s.setFault c).diag = s.diag := rfl
@[simp] theorem State.setFault_cfg (c : FaultCode) : (s.setFault c).cfg = s.cfg := rfl
@[simp] theorem State.setFault_host (c : FaultCode) : (s.setFault c).host = s.host := rfl
@[simp] theorem State.setFault_draws (c : FaultCode) : (s.setFault c).draws = s.draws := rfl
@[simp] theorem State.setFault_loadFailed (c : FaultCode) : (s.setFault c).loadFailed = s.loadFailed := rfl

@[simp] theorem State.setFb_v (f : FrameBuffer) : (s.setFb f).v = s.v := rfl
@[simp] theorem State.setFb_pc (f : FrameBuffer) : (s.setFb f).pc = s.pc := rfl
@[simp] theorem State.setFb_i (f : FrameBuffer) : (s.setFb f).i = s.i := rfl
@[simp] theorem State.setFb_sp (f : FrameBuffer) : (s.setFb f).sp = s.sp := rfl
@[simp] theorem State.setFb_stack (f : FrameBuffer) : (s.setFb f).stack = s.stack := rfl
@[simp] theorem State.setFb_dt (f : FrameBuffer) : (s.setFb f).dt = s.dt := rfl
@[simp] theorem State.setFb_st (f : FrameBuffer) : (s.setFb f).st = s.st := rfl
@[simp] theorem State.setFb_ext (f : FrameBuffer) : (s.setFb f).ext = s.ext := rfl
@[simp] theorem State.setFb_dirty (f : FrameBuffer) : (s.setFb f).dirty = s.dirty := rfl
@[simp] theorem State.setFb_opcode (f : FrameBuffer) : (s.setFb f).opcode = s.opcode := rfl
@[simp] theorem State.setFb_fault (f : FrameBuffer) : (s.setFb f).fault = s.fault := rfl
@[simp] theorem State.setFb_key (f : FrameBuffer) : (s.setFb f).key = s.key := rfl
@[simp] theorem State.setFb_mem (f : FrameBuffer) : (s.setFb f).mem = s.mem := rfl
@[simp] theorem State.setFb_fb (f : FrameBuffer) : (s.setFb f).fb = f := rfl
@[simp] theorem State.setFb_beep (f : FrameBuffer) : (s.setFb f).beep = s.beep := rfl
@[simp] theorem State.setFb_diag (f : FrameBuffer) : (s.setFb f).diag = s.diag := rfl
@[simp] theorem State.setFb_cfg (f : FrameBuffer) : (s.setFb f).cfg = s.cfg := rfl
@[simp] theorem State.setFb_host (f : FrameBuffer) : (s.setFb f).host = s.host := rfl
@[simp] theorem State.setFb_draws (f : FrameBuffer) : (s.setFb f).draws = s.draws := rfl
@[simp] theorem State.setFb_loadFailed (f : FrameBuffer) : (s.setFb f).loadFailed = s.loadFailed := rfl

/-! What reading a register, or a byte of memory, gives after an update of something else. -/

@[simp] theorem State.reg_setMem (m : Memory) (q : RegNo) : (s.setMem m).reg q = s.reg q := rfl
@[simp] theorem State.reg_setPc (p : Word) (q : RegNo) : (s.setPc p).reg q = s.reg q := rfl
@[simp] theorem State.reg_setI (w : Word) (q : RegNo) : (s.setI w).reg q = s.reg q := rfl
@[simp] theorem State.reg_setDt (b : Byte) (q : RegNo) : (s.setDt b).reg q = s.reg q := rfl
@[simp] theorem State.reg_setSt (b : Byte) (q : RegNo) : (s.setSt b).reg q = s.reg q := rfl
@[simp] theorem State.reg_setExt (e : Bool) (q : RegNo) : (s.setExt e).reg q = s.reg q := rfl
@[simp] theorem State.reg_setDirty (d : Bool) (q : RegNo) : (s.setDirty d).reg q = s.reg q := rfl
@[simp] theorem State.reg_setOpcode (w : Word) (q : RegNo) : (s.setOpcode w).reg q = s.reg q := rfl
@[simp] theorem State.reg_setKey (k : KeyNo) (b : Bool) (q : RegNo) : (s.setKey k b).reg q = s.reg q := rfl
@[simp] theorem State.reg_setOutputs (b : Bool) (d : Option Word) (q : RegNo) : (s.setOutputs b d).reg q = s.reg q := rfl
@[simp] theorem State.reg_setHost (h : List HostEvent) (n : Nat) (q : RegNo) : (s.setHost h n).reg q = s.reg q := rfl
@[simp] theorem State.reg_setLoadFailed (b : Bool) (q : RegNo) : (s.setLoadFailed b).reg q = s.reg q := rfl
@[simp] theorem State.reg_setStack (k : Vector Word 16) (p : Fin 17) (q : RegNo) : (s.setStack k p).reg q = s.reg q := rfl
@[simp] theorem State.reg_setFault (c : FaultCode) (q : RegNo) : (s.setFault c).reg q = s.reg q := rfl
@[simp] theorem State.reg_setFb (f : FrameBuffer) (q : RegNo) : (s.setFb f).reg q = s.reg q := rfl

@[simp] theorem State.byteAt_setReg (r : RegNo) (b : Byte) (n : Nat) : (s.setReg r b).byteAt n = s.byteAt n := rfl
@[simp] theorem State.byteAt_setPc (p : Word) (n : Nat) : (s.setPc p).byteAt n = s.byteAt n := rfl
@[simp] theorem State.byteAt_setI (w : Word) (n : Nat) : (s.setI w).byteAt n = s.byteAt n := rfl
@[simp] theorem State.byteAt_setDt (b : Byte) (n : Nat) : (s.setDt b).byteAt n = s.byteAt n := rfl
@[simp] theorem State.byteAt_setSt (b : Byte) (n : Nat) : (s.setSt b).byteAt n = s.byteAt n := rfl
@[simp] theorem State.byteAt_setExt (e : Bool) (n : Nat) : (s.setExt e).byteAt n = s.byteAt n := rfl
@[simp] theorem State.byteAt_setDirty (d : Bool) (n : Nat) : (s.setDirty d).byteAt n = s.byteAt n := rfl
@[simp] theorem State.byteAt_setOpcode (w : Word) (n : Nat) : (s.setOpcode w).byteAt n = s.byteAt n := rfl
@[simp] theorem State.byteAt_setKey (k : KeyNo) (b : Bool) (n : Nat) : (s.setKey k b).byteAt n = s.byteAt n := rfl
@[simp] theorem State.byteAt_setOutputs (b : Bool) (d : Option Word) (n : Nat) : (s.setOutputs b d).byteAt n = s.byteAt n := rfl
@[simp] theorem State.byteAt_setHost (h : List HostEvent) (n' : Nat) (n : Nat) : (s.setHost h n').byteAt n = s.byteAt n := rfl
@[simp] theorem State.byteAt_setLoadFailed (b : Bool) (n : Nat) : (s.setLoadFailed b).byteAt n = s.byteAt n := rfl
@[simp] theorem State.byteAt_setStack (k : Vector Word 16) (p : Fin 17) (n : Nat) : (s.setStack k p).byteAt n = s.byteAt n := rfl
@[simp] theorem State.byteAt_setFault (c : FaultCode) (n : Nat) : (s.setFault c).byteAt n = s.byteAt n := rfl
@[simp] theorem State.byteAt_setFb (f : FrameBuffer) (n : Nat) : (s.setFb f).byteAt n = s.byteAt n := rfl

end Sys2Proof.Machine
end

