-- ==== Sys2Proof/Laws/Memory.lean ====
section
/-! SUPPORT. The laws of memory (spec/20_memory.md R54, R55; spec/10_state.md R38): a read after a write, the canonical form
and what keeps it, the reads of the state, and the block accesses. -/

namespace Sys2Proof.Machine

variable (font : Vector Byte 80) (m : Memory) (a b lo : Nat) (x : Byte)

/-! ### Read after write -/

theorem Memory.lookup_insert : Memory.lookup (Memory.insert m a x) b = if a = b then some x else Memory.lookup m b := by
  induction m with
  | nil => rfl
  | cons c rest ih =>
    obtain ⟨k, y⟩ := c
    simp only [Memory.insert]
    split
    · simp only [Memory.lookup]
    · split
      · rename_i h
        subst h
        simp only [Memory.lookup]
        split <;> rfl
      · simp only [Memory.lookup, ih]
        split
        · rw [if_neg]
          omega
        · rfl

theorem Memory.lookup_erase : Memory.lookup (Memory.erase m a) b = if a = b then none else Memory.lookup m b := by
  induction m with
  | nil => simp [Memory.erase, Memory.lookup]
  | cons c rest ih =>
    obtain ⟨k, y⟩ := c
    simp only [Memory.erase, List.filter_cons] at ih ⊢
    by_cases hk : k = a
    · subst hk
      simp only [ne_eq, not_true_eq_false, decide_false, Bool.false_eq_true, if_false, Memory.lookup, ih]
      split <;> rfl
    · simp only [ne_eq, hk, not_false_eq_true, decide_true, if_true, Memory.lookup, ih]
      by_cases hb : k = b
      · subst hb
        rw [if_pos rfl, if_neg (Ne.symm hk), if_pos rfl]
      · simp only [hb, if_false]

/-- A read after a write: the byte written at its address, the old byte anywhere else (R55). -/
theorem Memory.read_write :
    Memory.read font (Memory.write font m a x) b = if a = b then x else Memory.read font m b := by
  unfold Memory.read Memory.write
  split
  · rename_i h
    rw [Memory.lookup_erase]
    split
    · rename_i hab
      subst hab
      exact h.symm
    · rfl
  · rw [Memory.lookup_insert]
    split <;> rfl

/-! ### The canonical form -/

theorem Memory.wfFrom_mono {lo lo' : Nat} (h : lo' ≤ lo) (hw : Memory.wfFrom font lo m = true) :
    Memory.wfFrom font lo' m = true := by
  cases m with
  | nil => rfl
  | cons c rest =>
    obtain ⟨k, y⟩ := c
    simp only [Memory.wfFrom, Bool.and_eq_true, decide_eq_true_eq] at hw ⊢
    exact ⟨⟨⟨by omega, hw.1.1.2⟩, hw.1.2⟩, hw.2⟩

theorem Memory.wfFrom_insert (hw : Memory.wfFrom font lo m = true) (hlo : lo ≤ a) (ha : a < memSize)
    (hx : x ≠ Memory.background font a) : Memory.wfFrom font lo (Memory.insert m a x) = true := by
  induction m generalizing lo with
  | nil => simp [Memory.insert, Memory.wfFrom, hlo, ha, hx]
  | cons c rest ih =>
    obtain ⟨k, y⟩ := c
    simp only [Memory.wfFrom, Bool.and_eq_true, decide_eq_true_eq] at hw
    simp only [Memory.insert]
    split
    · simp only [Memory.wfFrom, Bool.and_eq_true, decide_eq_true_eq]
      exact ⟨⟨⟨hlo, ha⟩, hx⟩, ⟨⟨by omega, hw.1.1.2⟩, hw.1.2⟩, hw.2⟩
    · split
      · rename_i h
        subst h
        simp only [Memory.wfFrom, Bool.and_eq_true, decide_eq_true_eq]
        exact ⟨⟨⟨hlo, ha⟩, hx⟩, hw.2⟩
      · simp only [Memory.wfFrom, Bool.and_eq_true, decide_eq_true_eq]
        exact ⟨hw.1, ih (k + 1) hw.2 (by omega)⟩

theorem Memory.wfFrom_erase (hw : Memory.wfFrom font lo m = true) :
    Memory.wfFrom font lo (Memory.erase m a) = true := by
  induction m generalizing lo with
  | nil => rfl
  | cons c rest ih =>
    obtain ⟨k, y⟩ := c
    simp only [Memory.wfFrom, Bool.and_eq_true, decide_eq_true_eq] at hw
    have hr := ih (k + 1) hw.2
    simp only [Memory.erase, List.filter_cons] at hr ⊢
    split
    · simp only [Memory.wfFrom, Bool.and_eq_true, decide_eq_true_eq]
      exact ⟨hw.1, hr⟩
    · exact Memory.wfFrom_mono font _ (by omega) hr

/-- A write inside the 4096 addresses keeps the canonical form. -/
theorem Memory.wf_write (hw : Memory.wf font m = true) (ha : a < memSize) :
    Memory.wf font (Memory.write font m a x) = true := by
  unfold Memory.write
  split
  · exact Memory.wfFrom_erase font m a 0 hw
  · rename_i h
    exact Memory.wfFrom_insert font m a 0 x hw (Nat.zero_le a) ha h

theorem Memory.wf_nil : Memory.wf font [] = true := rfl

theorem effAddr_lt (base : Word) (off : Nat) : effAddr base off < memSize := Nat.mod_lt _ (by decide)

/-- Nothing is listed below the bound. -/
theorem Memory.lookup_below (hw : Memory.wfFrom font lo m = true) (h : a < lo) : Memory.lookup m a = none := by
  induction m generalizing lo with
  | nil => rfl
  | cons c rest ih =>
    obtain ⟨k, y⟩ := c
    simp only [Memory.wfFrom, Bool.and_eq_true, decide_eq_true_eq] at hw
    simp only [Memory.lookup]
    rw [if_neg (by omega)]
    exact ih (k + 1) hw.2 (by omega)

/-- Outside the 4096 addresses nothing is listed. -/
theorem Memory.lookup_above (hw : Memory.wfFrom font lo m = true) (h : memSize ≤ a) : Memory.lookup m a = none := by
  induction m generalizing lo with
  | nil => rfl
  | cons c rest ih =>
    obtain ⟨k, y⟩ := c
    simp only [Memory.wfFrom, Bool.and_eq_true, decide_eq_true_eq] at hw
    simp only [Memory.lookup]
    rw [if_neg (by omega)]
    exact ih (k + 1) hw.2

/-! ### The state's memory -/

variable (s : State) (base : Word) (off : Nat)

@[simp] theorem State.byteAt_setMem : (s.setMem m).byteAt a = Memory.read s.cfg.font m a := rfl

/-- MemRead after MemWrite (R9, R55). -/
theorem State.byteAt_memWrite : (s.memWrite base off x).byteAt a = if effAddr base off = a then x else s.byteAt a := by
  unfold State.memWrite
  rw [State.byteAt_setMem, Memory.read_write]
  rfl

theorem State.memWrite_eq : s.memWrite base off x = s.setMem (s.memWrite base off x).mem := rfl

/-- A block write writes memory only. -/
theorem State.memWriteList_eq (bs : List Byte) :
    s.memWriteList base off bs = s.setMem (s.memWriteList base off bs).mem := by
  induction bs generalizing s off with
  | nil => rfl
  | cons y rest ih =>
    simp only [State.memWriteList]
    rw [ih]
    rfl

/-! A block write leaves every field but MEM alone. -/

@[simp] theorem State.memWriteList_v (bs : List Byte) : (s.memWriteList base off bs).v = s.v := by
  rw [State.memWriteList_eq]; rfl
@[simp] theorem State.memWriteList_pc (bs : List Byte) : (s.memWriteList base off bs).pc = s.pc := by
  rw [State.memWriteList_eq]; rfl
@[simp] theorem State.memWriteList_i (bs : List Byte) : (s.memWriteList base off bs).i = s.i := by
  rw [State.memWriteList_eq]; rfl
@[simp] theorem State.memWriteList_sp (bs : List Byte) : (s.memWriteList base off bs).sp = s.sp := by
  rw [State.memWriteList_eq]; rfl
@[simp] theorem State.memWriteList_stack (bs : List Byte) : (s.memWriteList base off bs).stack = s.stack := by
  rw [State.memWriteList_eq]; rfl
@[simp] theorem State.memWriteList_dt (bs : List Byte) : (s.memWriteList base off bs).dt = s.dt := by
  rw [State.memWriteList_eq]; rfl
@[simp] theorem State.memWriteList_st (bs : List Byte) : (s.memWriteList base off bs).st = s.st := by
  rw [State.memWriteList_eq]; rfl
@[simp] theorem State.memWriteList_ext (bs : List Byte) : (s.memWriteList base off bs).ext = s.ext := by
  rw [State.memWriteList_eq]; rfl
@[simp] theorem State.memWriteList_dirty (bs : List Byte) : (s.memWriteList base off bs).dirty = s.dirty := by
  rw [State.memWriteList_eq]; rfl
@[simp] theorem State.memWriteList_opcode (bs : List Byte) : (s.memWriteList base off bs).opcode = s.opcode := by
  rw [State.memWriteList_eq]; rfl
@[simp] theorem State.memWriteList_fault (bs : List Byte) : (s.memWriteList base off bs).fault = s.fault := by
  rw [State.memWriteList_eq]; rfl
@[simp] theorem State.memWriteList_key (bs : List Byte) : (s.memWriteList base off bs).key = s.key := by
  rw [State.memWriteList_eq]; rfl
@[simp] theorem State.memWriteList_fb (bs : List Byte) : (s.memWriteList base off bs).fb = s.fb := by
  rw [State.memWriteList_eq]; rfl
@[simp] theorem State.memWriteList_beep (bs : List Byte) : (s.memWriteList base off bs).beep = s.beep := by
  rw [State.memWriteList_eq]; rfl
@[simp] theorem State.memWriteList_diag (bs : List Byte) : (s.memWriteList base off bs).diag = s.diag := by
  rw [State.memWriteList_eq]; rfl
@[simp] theorem State.memWriteList_cfg (bs : List Byte) : (s.memWriteList base off bs).cfg = s.cfg := by
  rw [State.memWriteList_eq]; rfl
@[simp] theorem State.memWriteList_host (bs : List Byte) : (s.memWriteList base off bs).host = s.host := by
  rw [State.memWriteList_eq]; rfl
@[simp] theorem State.memWriteList_draws (bs : List Byte) : (s.memWriteList base off bs).draws = s.draws := by
  rw [State.memWriteList_eq]; rfl
@[simp] theorem State.memWriteList_loadFailed (bs : List Byte) : (s.memWriteList base off bs).loadFailed = s.loadFailed := by
  rw [State.memWriteList_eq]; rfl
@[simp] theorem State.reg_memWriteList (bs : List Byte) (q : RegNo) : (s.memWriteList base off bs).reg q = s.reg q := by
  rw [State.memWriteList_eq]; rfl

/-- A block write writes nowhere but at the effective addresses of its elements (R53, R54). -/
theorem State.byteAt_memWriteList_other (bs : List Byte) (h : ∀ k < bs.length, effAddr base (off + k) ≠ a) :
    (s.memWriteList base off bs).byteAt a = s.byteAt a := by
  induction bs generalizing s off with
  | nil => rfl
  | cons y rest ih =>
    simp only [State.memWriteList]
    rw [ih]
    · rw [State.byteAt_memWrite, if_neg]
      simpa using h 0 (by simp)
    · intro k hk
      have := h (k + 1) (by simpa using hk)
      rwa [show off + 1 + k = off + (k + 1) by omega]

theorem effAddr_inj {base : Word} {j k : Nat} (h : effAddr base j = effAddr base k) (hj : j < memSize) (hk : k < memSize) :
    j = k := by
  unfold effAddr memSize at *
  omega

/-- Element k of a block write, read back; the block is shorter than the memory, so no two elements share an address. -/
theorem State.byteAt_memWriteList (bs : List Byte) (k : Nat) (hk : k < bs.length) (hl : off + bs.length ≤ memSize) :
    (s.memWriteList base off bs).byteAt (effAddr base (off + k)) = bs[k] := by
  induction bs generalizing s off k with
  | nil => simp at hk
  | cons y rest ih =>
    simp only [State.memWriteList]
    simp only [List.length_cons] at hk hl
    cases k with
    | zero =>
      rw [State.byteAt_memWriteList_other]
      · rw [State.byteAt_memWrite]
        simp
      · intro j hj he
        have := effAddr_inj he (by omega) (by omega)
        omega
    | succ k =>
      have := ih (s.memWrite base off y) (off + 1) k (by omega) (by omega)
      rw [show off + 1 + k = off + (k + 1) by omega] at this
      simpa using this

/-- A block write keeps the canonical form. -/
theorem State.wf_memWriteList (bs : List Byte) (hw : Memory.wf s.cfg.font s.mem = true) :
    Memory.wf s.cfg.font (s.memWriteList base off bs).mem = true := by
  induction bs generalizing s off with
  | nil => exact hw
  | cons y rest ih =>
    simp only [State.memWriteList]
    exact ih (s.memWrite base off y) (off + 1) (Memory.wf_write _ _ _ _ hw (effAddr_lt base off))

@[simp] theorem State.memReadList_length (n : Nat) : (s.memReadList base n).length = n := by
  simp [State.memReadList]

@[simp] theorem State.memReadList_getElem (n k : Nat) (h : k < (s.memReadList base n).length) :
    (s.memReadList base n)[k] = s.memRead base k := by
  simp [State.memReadList]

/-- MemRead of a word just stored at PC (R50). -/
theorem State.fetch_bytes (w : Byte) (w' : Byte) :
    (s.memWriteList base 0 [w, w']).memRead base 0 = w ∧ (s.memWriteList base 0 [w, w']).memRead base 1 = w' := by
  constructor
  · exact State.byteAt_memWriteList s base 0 [w, w'] 0 (by simp) (by simp [memSize])
  · exact State.byteAt_memWriteList s base 0 [w, w'] 1 (by simp) (by simp [memSize])

end Sys2Proof.Machine
end

