-- ==== Sys2Proof/Laws/Ops.lean ====
section
/-! SUPPORT. One lemma for each shared operation over registers, the stack, the keypad, the timers and the framebuffer:
everything it can do, for later proofs to cite instead of unfolding it. -/

namespace Sys2Proof.Machine

variable (s : State)

/-! ### Registers -/

@[simp] theorem State.reg_setReg (r q : RegNo) (b : Byte) : (s.setReg r b).reg q = if q = r then b else s.reg q := by
  simp only [State.reg, State.setReg_v, Fin.getElem_fin, Vector.getElem_set, Fin.ext_iff, eq_comm]

@[simp] theorem State.reg_setFlag (q : RegNo) (f : Bool) :
    (s.setFlag f).reg q = if q = regVF then flagByte f else s.reg q := State.reg_setReg s regVF q (flagByte f)

/-- Result first, flag second: VF ends as the flag whatever X is (R131). -/
@[simp] theorem State.reg_setResultFlag (x q : RegNo) (b : Byte) (f : Bool) :
    (s.setResultFlag x b f).reg q = if q = regVF then flagByte f else if q = x then b else s.reg q := by
  simp [State.setResultFlag]

/-- Consecutive registers loaded from a list: register `r + k` gets element k, the others keep their value (R189). -/
theorem State.reg_setRegsFrom (r : Nat) (bs : List Byte) (h : r + bs.length ≤ 16) (q : RegNo) :
    (s.setRegsFrom r bs).reg q = if hq : r ≤ q.val ∧ q.val < r + bs.length then bs[q.val - r]'(by omega) else s.reg q := by
  induction bs generalizing s r with
  | nil =>
    rw [dif_neg]
    · rfl
    · simp only [List.length_nil]
      omega
  | cons b rest ih =>
    simp only [List.length_cons] at h
    simp only [State.setRegsFrom, List.length_cons]
    rw [ih (s.setReg (Fin.ofNat 16 r) b) (r + 1) (by omega), State.reg_setReg]
    have hr : (Fin.ofNat 16 r).val = r := Nat.mod_eq_of_lt (by omega)
    by_cases h1 : r + 1 ≤ q.val ∧ q.val < r + 1 + rest.length
    · rw [dif_pos h1, dif_pos ⟨by omega, by omega⟩]
      simp only [show q.val - r = (q.val - (r + 1)) + 1 by omega, List.getElem_cons_succ]
    · rw [dif_neg h1]
      by_cases h2 : q = Fin.ofNat 16 r
      · have h3 : q.val = r := by rw [h2, hr]
        rw [if_pos h2, dif_pos ⟨by omega, by omega⟩]
        simp only [h3, Nat.sub_self, List.getElem_cons_zero]
      · have h3 : q.val ≠ r := fun e => h2 (Fin.ext (by rw [hr, e]))
        rw [if_neg h2, dif_neg (by omega)]

/-- Loading registers changes the registers only. -/
theorem State.setRegsFrom_eq (r : Nat) (bs : List Byte) : s.setRegsFrom r bs = { s with v := (s.setRegsFrom r bs).v } := by
  induction bs generalizing s r with
  | nil => rfl
  | cons b rest ih =>
    simp only [State.setRegsFrom]
    rw [ih]
    rfl

/-! Loading registers leaves every field but the registers alone. -/

@[simp] theorem State.setRegsFrom_pc (r : Nat) (bs : List Byte) : (s.setRegsFrom r bs).pc = s.pc := by
  rw [State.setRegsFrom_eq]
@[simp] theorem State.setRegsFrom_i (r : Nat) (bs : List Byte) : (s.setRegsFrom r bs).i = s.i := by
  rw [State.setRegsFrom_eq]
@[simp] theorem State.setRegsFrom_sp (r : Nat) (bs : List Byte) : (s.setRegsFrom r bs).sp = s.sp := by
  rw [State.setRegsFrom_eq]
@[simp] theorem State.setRegsFrom_stack (r : Nat) (bs : List Byte) : (s.setRegsFrom r bs).stack = s.stack := by
  rw [State.setRegsFrom_eq]
@[simp] theorem State.setRegsFrom_dt (r : Nat) (bs : List Byte) : (s.setRegsFrom r bs).dt = s.dt := by
  rw [State.setRegsFrom_eq]
@[simp] theorem State.setRegsFrom_st (r : Nat) (bs : List Byte) : (s.setRegsFrom r bs).st = s.st := by
  rw [State.setRegsFrom_eq]
@[simp] theorem State.setRegsFrom_ext (r : Nat) (bs : List Byte) : (s.setRegsFrom r bs).ext = s.ext := by
  rw [State.setRegsFrom_eq]
@[simp] theorem State.setRegsFrom_dirty (r : Nat) (bs : List Byte) : (s.setRegsFrom r bs).dirty = s.dirty := by
  rw [State.setRegsFrom_eq]
@[simp] theorem State.setRegsFrom_opcode (r : Nat) (bs : List Byte) : (s.setRegsFrom r bs).opcode = s.opcode := by
  rw [State.setRegsFrom_eq]
@[simp] theorem State.setRegsFrom_fault (r : Nat) (bs : List Byte) : (s.setRegsFrom r bs).fault = s.fault := by
  rw [State.setRegsFrom_eq]
@[simp] theorem State.setRegsFrom_key (r : Nat) (bs : List Byte) : (s.setRegsFrom r bs).key = s.key := by
  rw [State.setRegsFrom_eq]
@[simp] theorem State.setRegsFrom_mem (r : Nat) (bs : List Byte) : (s.setRegsFrom r bs).mem = s.mem := by
  rw [State.setRegsFrom_eq]
@[simp] theorem State.setRegsFrom_fb (r : Nat) (bs : List Byte) : (s.setRegsFrom r bs).fb = s.fb := by
  rw [State.setRegsFrom_eq]
@[simp] theorem State.setRegsFrom_beep (r : Nat) (bs : List Byte) : (s.setRegsFrom r bs).beep = s.beep := by
  rw [State.setRegsFrom_eq]
@[simp] theorem State.setRegsFrom_diag (r : Nat) (bs : List Byte) : (s.setRegsFrom r bs).diag = s.diag := by
  rw [State.setRegsFrom_eq]
@[simp] theorem State.setRegsFrom_cfg (r : Nat) (bs : List Byte) : (s.setRegsFrom r bs).cfg = s.cfg := by
  rw [State.setRegsFrom_eq]
@[simp] theorem State.setRegsFrom_host (r : Nat) (bs : List Byte) : (s.setRegsFrom r bs).host = s.host := by
  rw [State.setRegsFrom_eq]
@[simp] theorem State.setRegsFrom_draws (r : Nat) (bs : List Byte) : (s.setRegsFrom r bs).draws = s.draws := by
  rw [State.setRegsFrom_eq]
@[simp] theorem State.setRegsFrom_loadFailed (r : Nat) (bs : List Byte) : (s.setRegsFrom r bs).loadFailed = s.loadFailed := by
  rw [State.setRegsFrom_eq]
@[simp] theorem State.byteAt_setRegsFrom (r : Nat) (bs : List Byte) (a : Nat) : (s.setRegsFrom r bs).byteAt a = s.byteAt a := by
  rw [State.setRegsFrom_eq]; rfl

/-! ### The program counter -/

/-- A 16-bit sum with a small constant, as a number (R24). -/
theorem add_two_toNat (p : Word) : (p + 2#16).toNat = (p.toNat + 2) % 65536 := by simp [BitVec.toNat_add]

theorem add_four_toNat (p : Word) : (p + 4#16).toNat = (p.toNat + 4) % 65536 := by simp [BitVec.toNat_add]

/-- Zero extension keeps the number (R9). -/
@[simp] theorem zextByte_toNat (b : Byte) : (zextByte b).toNat = b.toNat := by
  have := b.isLt
  simp [zextByte]
  omega

@[simp] theorem zextAddr_toNat (a : Addr) : (zextAddr a).toNat = a.toNat := by
  have := a.isLt
  simp [zextAddr]
  omega

/-- The key number is V[X] modulo 16 (R172). -/
@[simp] theorem keyNo_val (b : Byte) : (keyNo b).val = b.toNat % 16 := by simp [keyNo]

@[simp] theorem State.advance_pc (n : Nat) : (s.advance n).pc = s.pc + BitVec.ofNat 16 n := rfl

/-- PC arithmetic is modulo 65536 (R24). -/
theorem State.advance_pc_toNat (n : Nat) : (s.advance n).pc.toNat = (s.pc.toNat + n) % 65536 := by
  simp [BitVec.toNat_add]

theorem State.fallThrough_eq : s.fallThrough = s.setPc (s.pc + 2#16) := rfl

theorem State.skipIf_eq (c : Bool) : s.skipIf c = s.setPc (s.pc + if c = true then 4#16 else 2#16) := by
  cases c <;> rfl

/-! ### The stack -/

/-- A push below depth 16 writes entry SP and then counts it (R29). -/
theorem State.push_of_lt (w : Word) (h : s.sp.val < 16) :
    s.push w = some (s.setStack (s.stack.set s.sp.val w h) ⟨s.sp.val + 1, by omega⟩) := dif_pos h

/-- A push at depth 16 fails (R201). -/
theorem State.push_full (w : Word) (h : s.sp = 16) : s.push w = none := by
  unfold State.push
  rw [dif_neg]
  simp [h]

/-- A pop above depth 0 gives entry SP - 1 and leaves every entry (R29). -/
theorem State.pop_of_pos (h : s.sp.val ≠ 0) :
    s.pop = some (s.stack[s.sp.val - 1], s.setStack s.stack ⟨s.sp.val - 1, by omega⟩) := dif_neg h

/-- A pop at depth 0 fails (R202). -/
theorem State.pop_empty (h : s.sp = 0) : s.pop = none := by
  unfold State.pop
  rw [dif_pos]
  simp [h]

/-! ### The keypad -/

/-- P holds exactly the keys that are down (R182). -/
theorem mem_pressedKeys (key : Vector Bool 16) (k : KeyNo) : k ∈ pressedKeys key ↔ key[k] = true := by
  simp [pressedKeys]

/-- P is in ascending order. -/
theorem pressedKeys_sorted (key : Vector Bool 16) : (pressedKeys key).Pairwise (· < ·) :=
  List.Pairwise.filter _ (List.pairwise_lt_finRange 16)

theorem reportedKey_none (p : KeyPriority) (key : Vector Bool 16) :
    reportedKey p key = none ↔ ∀ k : KeyNo, key[k] = false := by
  have h : pressedKeys key = [] ↔ ∀ k : KeyNo, key[k] = false := by
    rw [List.eq_nil_iff_forall_not_mem]
    simp only [mem_pressedKeys, Bool.not_eq_true]
  cases p <;> simp [reportedKey, h]

/-- max(P): the reported key is down, and no key above it is (R182). -/
theorem reportedKey_highest (key : Vector Bool 16) (k : KeyNo) :
    reportedKey .highest key = some k ↔ key[k] = true ∧ ∀ j : KeyNo, key[j] = true → j ≤ k := by
  have hs := pressedKeys_sorted key
  constructor
  · intro h
    obtain ⟨l, hl⟩ := List.getLast?_eq_some_iff.mp h
    refine ⟨(mem_pressedKeys key k).mp (by rw [hl]; simp), fun j hj => ?_⟩
    have hj' := (mem_pressedKeys key j).mpr hj
    rw [hl, List.mem_append, List.mem_singleton] at hj'
    rw [hl, List.pairwise_append] at hs
    rcases hj' with h1 | rfl
    · exact le_of_lt (hs.2.2 j h1 k (by simp))
    · exact le_refl _
  · rintro ⟨hk, hmax⟩
    cases hr : reportedKey .highest key with
    | none => exact absurd hk (by simp [(reportedKey_none .highest key).mp hr k])
    | some j =>
      obtain ⟨l, hl⟩ := List.getLast?_eq_some_iff.mp hr
      have hj : key[j] = true := (mem_pressedKeys key j).mp (by rw [hl]; simp)
      have h1 := hmax j hj
      have hk' := (mem_pressedKeys key k).mpr hk
      rw [hl, List.mem_append, List.mem_singleton] at hk'
      rw [hl, List.pairwise_append] at hs
      rcases hk' with h2 | rfl
      · exact absurd (hs.2.2 k h2 j (by simp)) (not_lt.mpr h1)
      · rfl

/-- min(P): the reported key is down, and no key below it is (R190). -/
theorem reportedKey_lowest (key : Vector Bool 16) (k : KeyNo) :
    reportedKey .lowest key = some k ↔ key[k] = true ∧ ∀ j : KeyNo, key[j] = true → k ≤ j := by
  have hs := pressedKeys_sorted key
  cases hp : pressedKeys key with
  | nil =>
    have h0 : ∀ k : KeyNo, key[k] = false := fun k => by
      have := mem_pressedKeys key k
      rw [hp] at this
      simpa using this
    have hn := (reportedKey_none .lowest key).mpr h0
    rw [hn]
    constructor
    · intro h
      exact absurd h (by simp)
    · rintro ⟨hk, -⟩
      rw [h0 k] at hk
      exact absurd hk (by simp)
  | cons a l =>
    rw [hp, List.pairwise_cons] at hs
    have ha : key[a] = true := (mem_pressedKeys key a).mp (by rw [hp]; simp)
    have hle : ∀ j : KeyNo, key[j] = true → a ≤ j := fun j hj => by
      have hj' := (mem_pressedKeys key j).mpr hj
      rw [hp, List.mem_cons] at hj'
      rcases hj' with rfl | h1
      · exact le_refl _
      · exact le_of_lt (hs.1 j h1)
    have hr : reportedKey .lowest key = some a := by simp [reportedKey, hp]
    rw [hr]
    constructor
    · intro h
      obtain rfl := Option.some.inj h
      exact ⟨ha, hle⟩
    · rintro ⟨hk, hmin⟩
      exact congrArg some (le_antisymm (hle k hk) (hmin a ha))

/-! ### The timers -/

/-- A timer counts down by one and stops at 0 (R222). -/
theorem countDown_toNat (b : Byte) : (countDown b).toNat = b.toNat - 1 := by
  unfold countDown
  split
  · rename_i h
    subst h
    rfl
  · rename_i h
    have h0 : b.toNat ≠ 0 := fun e => h (BitVec.eq_of_toNat_eq (by simpa using e))
    have := b.isLt
    simp [BitVec.toNat_sub]
    omega

@[simp] theorem countDown_zero : countDown 0x00#8 = 0x00#8 := rfl

/-- The tick writes DT, ST and the output pulses (R222). -/
theorem State.timerTick_eq : s.timerTick =
    ((s.setDt (countDown s.dt)).setSt (countDown s.st)).setOutputs (s.st == 0x01#8) s.diag := rfl

/-! ### The framebuffer -/

/-- Toggling one cell toggles it and leaves every other (R160). -/
theorem pixelOf_flipPixel (fb : FrameBuffer) (p q : Pixel) :
    pixelOf (flipPixel fb p) q = if p = q then !pixelOf fb q else pixelOf fb q := by
  obtain ⟨px, py⟩ := p
  obtain ⟨qx, qy⟩ := q
  have hlt := qx.isLt
  simp only [pixelOf, flipPixel, Fin.getElem_fin, Vector.getElem_set, Pixel.mk.injEq]
  by_cases hy : py = qy
  · subst hy
    rw [if_pos rfl, BitVec.getLsbD_xor, BitVec.getLsbD_shiftLeft]
    by_cases hx : px = qx
    · subst hx
      simp
    · have hne : px.val ≠ qx.val := fun e => hx (Fin.ext e)
      have hbit : (decide (qx.val < 128) && !decide (qx.val < px.val) && (1#128).getLsbD (qx.val - px.val)) = false := by
        by_cases h : qx.val < px.val
        · simp [h]
        · have : qx.val - px.val ≠ 0 := by omega
          simp [this]
      rw [hbit]
      simp [hx]
  · have hne : ¬ py.val = qy.val := fun e => hy (Fin.ext e)
    rw [if_neg hne, if_neg (fun h => hy h.2)]

theorem pixelOf_clearedFrame (p : Pixel) : pixelOf clearedFrame p = false := by
  simp [pixelOf, clearedFrame]

/-- `blit` from any collision bit, as a fold. -/
theorem blit_fold (cells : List Pixel) (fb : FrameBuffer) (c : Bool) :
    cells.Nodup →
    (∀ q, pixelOf (cells.foldl (fun (fh : FrameBuffer × Bool) p => (flipPixel fh.1 p, fh.2 || pixelOf fh.1 p)) (fb, c)).1 q =
      if q ∈ cells then !pixelOf fb q else pixelOf fb q) ∧
    (cells.foldl (fun (fh : FrameBuffer × Bool) p => (flipPixel fh.1 p, fh.2 || pixelOf fh.1 p)) (fb, c)).2 =
      (c || cells.any fun p => pixelOf fb p) := by
  induction cells generalizing fb c with
  | nil => simp
  | cons p rest ih =>
    intro hn
    rw [List.nodup_cons] at hn
    simp only [List.foldl_cons]
    obtain ⟨h1, h2⟩ := ih (flipPixel fb p) (c || pixelOf fb p) hn.2
    constructor
    · intro q
      rw [h1 q, pixelOf_flipPixel]
      by_cases hq : p = q
      · subst hq
        simp [hn.1]
      · have hq' : q ≠ p := Ne.symm hq
        simp [hq, hq']
    · rw [h2, List.any_cons, ← Bool.or_assoc]
      congr 1
      rw [Bool.eq_iff_iff, List.any_eq_true, List.any_eq_true]
      have hne : ∀ x ∈ rest, p ≠ x := fun x hx e => hn.1 (e ▸ hx)
      constructor <;>
      · rintro ⟨x, hx, hv⟩
        refine ⟨x, hx, ?_⟩
        simpa [pixelOf_flipPixel, hne x hx] using hv

/-- What a blit over distinct cells does: it toggles exactly those cells, and collides exactly when one of them was set
before it (R160, R163). -/
theorem blit_spec (fb : FrameBuffer) (cells : List Pixel) (h : cells.Nodup) :
    (∀ q, pixelOf (blit fb cells).1 q = if q ∈ cells then !pixelOf fb q else pixelOf fb q) ∧
    (blit fb cells).2 = cells.any fun p => pixelOf fb p := by
  have := blit_fold cells fb false h
  simpa [blit] using this

/-- The cells of a sprite, by row and column (R160, R161). -/
theorem mem_spriteCells (wrap : DrawWrap) (ext : Bool) (x0 y0 : Nat) (rows : List Byte) (q : Pixel) :
    q ∈ spriteCells wrap ext x0 y0 rows ↔ ∃ r, ∃ h : r < rows.length, ∃ c < 8,
      rows[r].getLsbD (7 - c) = true ∧ cellOf wrap ext (x0 + c) (y0 + r) = q := by
  simp only [spriteCells, List.mem_flatMap, Prod.exists, List.mem_map, rowColumns, List.mem_filter, List.mem_range,
    List.mem_zipIdx_iff_getElem?]
  constructor
  · rintro ⟨b, r, hb, c, ⟨hc, hbit⟩, rfl⟩
    obtain ⟨h, rfl⟩ := List.getElem?_eq_some_iff.mp hb
    exact ⟨r, h, c, hc, hbit, rfl⟩
  · rintro ⟨r, h, c, hc, hbit, rfl⟩
    exact ⟨rows[r], r, List.getElem?_eq_some_iff.mpr ⟨h, rfl⟩, c, ⟨hc, hbit⟩, rfl⟩

theorem gridW_cases (ext : Bool) : gridW ext = 64 ∧ gridH ext = 32 ∨ gridW ext = 128 ∧ gridH ext = 64 := by
  cases ext <;> simp [gridW, gridH]

/-- The coordinates of a cell under DRAW_WRAP = linear, as numbers: none of the reductions to FB's size shows (R162). -/
theorem cellOf_linear (ext : Bool) (x y : Nat) :
    (cellOf .linear ext x y).x.val = (x + y * gridW ext) % (gridW ext * gridH ext) % gridW ext ∧
    (cellOf .linear ext x y).y.val = (x + y * gridW ext) % (gridW ext * gridH ext) / gridW ext := by
  rcases gridW_cases ext with ⟨hw, hh⟩ | ⟨hw, hh⟩ <;>
  · simp only [cellOf, hw, hh, Fin.ofNat]
    omega

/-- The coordinates of a cell under DRAW_WRAP = per_axis (R162). -/
theorem cellOf_perAxis (ext : Bool) (x y : Nat) :
    (cellOf .perAxis ext x y).x.val = x % gridW ext ∧ (cellOf .perAxis ext x y).y.val = y % gridH ext := by
  rcases gridW_cases ext with ⟨hw, hh⟩ | ⟨hw, hh⟩ <;>
  · simp only [cellOf, hw, hh, Fin.ofNat]
    omega

/-- Two pixels of one 8 x 15 block never share a cell (R163). -/
theorem cellOf_inj (wrap : DrawWrap) (ext : Bool) {x0 y0 c r c' r' : Nat} (hc : c < 8) (hc' : c' < 8) (hr : r < 15)
    (hr' : r' < 15) (h : cellOf wrap ext (x0 + c) (y0 + r) = cellOf wrap ext (x0 + c') (y0 + r')) : c = c' ∧ r = r' := by
  have hx := congrArg (fun p => p.x.val) h
  have hy := congrArg (fun p => p.y.val) h
  cases wrap with
  | linear =>
    rw [(cellOf_linear ext _ _).1, (cellOf_linear ext _ _).1] at hx
    rw [(cellOf_linear ext _ _).2, (cellOf_linear ext _ _).2] at hy
    rcases gridW_cases ext with ⟨hw, hh⟩ | ⟨hw, hh⟩ <;>
    · simp only [hw, hh] at hx hy
      omega
  | perAxis =>
    rw [(cellOf_perAxis ext _ _).1, (cellOf_perAxis ext _ _).1] at hx
    rw [(cellOf_perAxis ext _ _).2, (cellOf_perAxis ext _ _).2] at hy
    rcases gridW_cases ext with ⟨hw, hh⟩ | ⟨hw, hh⟩ <;>
    · simp only [hw, hh] at hx hy
      omega

/-- A sprite of at most 15 rows addresses no cell twice (R163). -/
theorem spriteCells_nodup (wrap : DrawWrap) (ext : Bool) (x0 y0 : Nat) (rows : List Byte) (h : rows.length ≤ 15) :
    (spriteCells wrap ext x0 y0 rows).Nodup := by
  unfold spriteCells
  rw [List.nodup_flatMap]
  have hidx : ∀ (b : Byte) (r : Nat), (b, r) ∈ rows.zipIdx → r < 15 := fun b r hm => by
    obtain ⟨hr, -⟩ := List.getElem?_eq_some_iff.mp (List.mem_zipIdx_iff_getElem?.mp hm)
    omega
  constructor
  · rintro ⟨b, r⟩ hm
    apply List.Nodup.map_on
    · intro c hc c' hc' he
      simp only [rowColumns, List.mem_filter, List.mem_range] at hc hc'
      exact (cellOf_inj wrap ext hc.1 hc'.1 (hidx b r hm) (hidx b r hm) he).1
    · exact List.nodup_range.filter _
  · have hp : rows.zipIdx.Pairwise fun a b => a.2 ≠ b.2 := by
      have := List.nodup_range (n := rows.length)
      rw [List.range_eq_range', ← List.zipIdx_map_snd 0 rows] at this
      exact List.pairwise_map.mp this
    refine hp.imp_of_mem ?_
    rintro ⟨b, r⟩ ⟨b', r'⟩ hm hm' hne
    simp only [Function.onFun, List.disjoint_left, List.mem_map]
    rintro q ⟨c, hc, rfl⟩ ⟨c', hc', he⟩
    simp only [rowColumns, List.mem_filter, List.mem_range] at hc hc'
    exact hne (cellOf_inj wrap ext hc.1 hc'.1 (hidx b r hm) (hidx b' r' hm') he.symm).2

end Sys2Proof.Machine
end

