-- ==== Sys2Proof/Laws/Cycle.lean ====
section
/-! SUPPORT. The laws of a cycle and of a step: what the fetch, the tick and the use of the inputs leave alone, one lemma
for each way a step can go, and what an instruction with several outcomes can answer. -/

namespace Sys2Proof.Machine

variable (s : State)

/-! ### The parts of a cycle, field by field -/

@[simp] theorem State.fetched_v : s.fetched.v = s.v := rfl
@[simp] theorem State.fetched_pc : s.fetched.pc = s.pc := rfl
@[simp] theorem State.fetched_i : s.fetched.i = s.i := rfl
@[simp] theorem State.fetched_sp : s.fetched.sp = s.sp := rfl
@[simp] theorem State.fetched_stack : s.fetched.stack = s.stack := rfl
@[simp] theorem State.fetched_dt : s.fetched.dt = s.dt := rfl
@[simp] theorem State.fetched_st : s.fetched.st = s.st := rfl
@[simp] theorem State.fetched_ext : s.fetched.ext = s.ext := rfl
@[simp] theorem State.fetched_dirty : s.fetched.dirty = s.dirty := rfl
@[simp] theorem State.fetched_opcode : s.fetched.opcode = s.fetchWord := rfl
@[simp] theorem State.fetched_fault : s.fetched.fault = s.fault := rfl
@[simp] theorem State.fetched_key : s.fetched.key = s.key := rfl
@[simp] theorem State.fetched_mem : s.fetched.mem = s.mem := rfl
@[simp] theorem State.fetched_fb : s.fetched.fb = s.fb := rfl
@[simp] theorem State.fetched_beep : s.fetched.beep = false := rfl
@[simp] theorem State.fetched_diag : s.fetched.diag = none := rfl
@[simp] theorem State.fetched_cfg : s.fetched.cfg = s.cfg := rfl
@[simp] theorem State.fetched_host : s.fetched.host = s.host := rfl
@[simp] theorem State.fetched_draws : s.fetched.draws = s.draws := rfl
@[simp] theorem State.fetched_loadFailed : s.fetched.loadFailed = s.loadFailed := rfl
@[simp] theorem State.reg_fetched (q : RegNo) : s.fetched.reg q = s.reg q := rfl
@[simp] theorem State.byteAt_fetched (a : Nat) : s.fetched.byteAt a = s.byteAt a := rfl

@[simp] theorem State.timerTick_v : s.timerTick.v = s.v := rfl
@[simp] theorem State.timerTick_pc : s.timerTick.pc = s.pc := rfl
@[simp] theorem State.timerTick_i : s.timerTick.i = s.i := rfl
@[simp] theorem State.timerTick_sp : s.timerTick.sp = s.sp := rfl
@[simp] theorem State.timerTick_stack : s.timerTick.stack = s.stack := rfl
@[simp] theorem State.timerTick_dt : s.timerTick.dt = countDown s.dt := rfl
@[simp] theorem State.timerTick_st : s.timerTick.st = countDown s.st := rfl
@[simp] theorem State.timerTick_ext : s.timerTick.ext = s.ext := rfl
@[simp] theorem State.timerTick_dirty : s.timerTick.dirty = s.dirty := rfl
@[simp] theorem State.timerTick_opcode : s.timerTick.opcode = s.opcode := rfl
@[simp] theorem State.timerTick_fault : s.timerTick.fault = s.fault := rfl
@[simp] theorem State.timerTick_key : s.timerTick.key = s.key := rfl
@[simp] theorem State.timerTick_mem : s.timerTick.mem = s.mem := rfl
@[simp] theorem State.timerTick_fb : s.timerTick.fb = s.fb := rfl
@[simp] theorem State.timerTick_beep : s.timerTick.beep = (s.st == 0x01#8) := rfl
@[simp] theorem State.timerTick_diag : s.timerTick.diag = s.diag := rfl
@[simp] theorem State.timerTick_cfg : s.timerTick.cfg = s.cfg := rfl
@[simp] theorem State.timerTick_host : s.timerTick.host = s.host := rfl
@[simp] theorem State.timerTick_draws : s.timerTick.draws = s.draws := rfl
@[simp] theorem State.timerTick_loadFailed : s.timerTick.loadFailed = s.loadFailed := rfl
@[simp] theorem State.reg_timerTick (q : RegNo) : s.timerTick.reg q = s.reg q := rfl
@[simp] theorem State.byteAt_timerTick (a : Nat) : s.timerTick.byteAt a = s.byteAt a := rfl

/-- The use of a cycle's inputs touches the script and the draw counter only. -/
theorem State.consumeInput_eq : s.consumeInput = s.setHost s.consumeInput.host s.consumeInput.draws := by
  unfold State.consumeInput
  split <;> rfl

@[simp] theorem State.consumeInput_v : s.consumeInput.v = s.v := by
  rw [State.consumeInput_eq]; rfl
@[simp] theorem State.consumeInput_pc : s.consumeInput.pc = s.pc := by
  rw [State.consumeInput_eq]; rfl
@[simp] theorem State.consumeInput_i : s.consumeInput.i = s.i := by
  rw [State.consumeInput_eq]; rfl
@[simp] theorem State.consumeInput_sp : s.consumeInput.sp = s.sp := by
  rw [State.consumeInput_eq]; rfl
@[simp] theorem State.consumeInput_stack : s.consumeInput.stack = s.stack := by
  rw [State.consumeInput_eq]; rfl
@[simp] theorem State.consumeInput_dt : s.consumeInput.dt = s.dt := by
  rw [State.consumeInput_eq]; rfl
@[simp] theorem State.consumeInput_st : s.consumeInput.st = s.st := by
  rw [State.consumeInput_eq]; rfl
@[simp] theorem State.consumeInput_ext : s.consumeInput.ext = s.ext := by
  rw [State.consumeInput_eq]; rfl
@[simp] theorem State.consumeInput_dirty : s.consumeInput.dirty = s.dirty := by
  rw [State.consumeInput_eq]; rfl
@[simp] theorem State.consumeInput_opcode : s.consumeInput.opcode = s.opcode := by
  rw [State.consumeInput_eq]; rfl
@[simp] theorem State.consumeInput_fault : s.consumeInput.fault = s.fault := by
  rw [State.consumeInput_eq]; rfl
@[simp] theorem State.consumeInput_key : s.consumeInput.key = s.key := by
  rw [State.consumeInput_eq]; rfl
@[simp] theorem State.consumeInput_mem : s.consumeInput.mem = s.mem := by
  rw [State.consumeInput_eq]; rfl
@[simp] theorem State.consumeInput_fb : s.consumeInput.fb = s.fb := by
  rw [State.consumeInput_eq]; rfl
@[simp] theorem State.consumeInput_beep : s.consumeInput.beep = s.beep := by
  rw [State.consumeInput_eq]; rfl
@[simp] theorem State.consumeInput_diag : s.consumeInput.diag = s.diag := by
  rw [State.consumeInput_eq]; rfl
@[simp] theorem State.consumeInput_cfg : s.consumeInput.cfg = s.cfg := by
  rw [State.consumeInput_eq]; rfl
@[simp] theorem State.consumeInput_loadFailed : s.consumeInput.loadFailed = s.loadFailed := by
  rw [State.consumeInput_eq]; rfl
@[simp] theorem State.reg_consumeInput (q : RegNo) : s.consumeInput.reg q = s.reg q := by
  rw [State.consumeInput_eq]; rfl
@[simp] theorem State.byteAt_consumeInput (a : Nat) : s.consumeInput.byteAt a = s.byteAt a := by
  rw [State.consumeInput_eq]; rfl

/-- The end of a cycle with a tick, and without one. -/
theorem State.endCycle_tick (h : s.fault = .none) : s.endCycle true = s.timerTick.consumeInput := by
  simp [State.endCycle, h]

theorem State.endCycle_noTick : s.endCycle false = s.consumeInput := by
  simp [State.endCycle]

theorem State.endCycle_fault (b : Bool) (h : s.fault ≠ .none) : s.endCycle b = s.consumeInput := by
  simp [State.endCycle, h]

/-- Unknown(w) advances PC, asserts `diag` and does nothing else (R80). -/
theorem execUnknown_eq (w : Word) : execUnknown w s = (s.setOutputs s.beep (some w)).setPc (s.pc + 2#16) := rfl

/-! ### The ways a step can go -/

/-- A pending host move happens (R11). -/
theorem step_move {s : State} {m : HostMove} {rest : List HostEvent} (h : s.host = .move m :: rest) :
    step s = .next (hostMove m (s.setHost rest s.draws)) := by
  unfold step
  rw [h]

/-- With no move pending the core runs a cycle (R11). -/
theorem step_cycle {s : State} (h : s.coreNext = true) : step s = runCycle s := by
  unfold step
  split
  · rename_i m rest hh
    simp [State.coreNext, hh] at h
  · rfl

/-- A state either has a move pending or runs a cycle next. -/
theorem coreNext_cases : (∃ m rest, s.host = .move m :: rest) ∨ s.coreNext = true := by
  unfold State.coreNext
  split
  · rename_i m rest h
    exact .inl ⟨m, rest, h⟩
  · exact .inr rfl

/-- A halted core's cycle (R204). -/
theorem step_halted {s : State} (h : s.coreNext = true) (hl : s.loadFailed = false) (hf : s.fault ≠ .none) :
    step s = .next (s.setOutputs false none).consumeInput := by
  rw [step_cycle h]
  unfold runCycle
  rw [if_neg (by simp [hl]), if_pos hf]

/-- A cycle that fetches, by what the fetched word does (R70). -/
theorem step_ready {s t : State} (h : s.Ready) (ht : execWord s.fetchWord s.fetched = .next t) :
    step s = .next (t.endCycle s.tickIn) := by
  rw [step_cycle h.coreNext]
  unfold runCycle
  rw [if_neg (by simp [h.loaded]), if_neg (by simp [h.notHalted]), ht]

/-- A run of one step more is a step and then a run. -/
theorem run_succ (M : Host.Core) (k : Nat) (s t : M.State) (h : M.step s = .next t) : M.run (k + 1) s = M.run k t := by
  rw [Host.Core.run, h]

/-- The same of this machine. -/
theorem run_core_succ {k : Nat} {s t : State} (h : step s = .next t) :
    Sys2Proof.core.run (k + 1) s = Sys2Proof.core.run k t := run_succ Sys2Proof.core k s t h

/-! ### Instructions with several outcomes -/

/-- 00EE: below the stack a fault, else a pop (R101, R202). -/
theorem exec00EE_cases : (s.sp = 0 ∧ exec00EE s = .next (s.setFault .stackUnderflow)) ∨
    ∃ _h : s.sp.val ≠ 0, exec00EE s = .next ((s.setStack s.stack ⟨s.sp.val - 1, by omega⟩).setPc
      (s.stack[s.sp.val - 1]'(by omega) + 2#16)) := by
  by_cases h : s.sp.val = 0
  · left
    refine ⟨Fin.ext h, ?_⟩
    simp only [exec00EE, State.pop_empty s (Fin.ext h), State.raise]
  · right
    refine ⟨h, ?_⟩
    simp only [exec00EE, State.pop_of_pos s h]

/-- 2NNN: on a full stack a fault, else a push (R111, R201). -/
theorem exec2NNN_cases (nnn : Addr) : (s.sp = 16 ∧ exec2NNN nnn s = .next (s.setFault .stackOverflow)) ∨
    ∃ h : s.sp.val < 16, exec2NNN nnn s = .next ((s.setStack (s.stack.set s.sp.val s.pc h) ⟨s.sp.val + 1, by omega⟩).setPc
      (zextAddr nnn)) := by
  by_cases h : s.sp.val < 16
  · right
    refine ⟨h, ?_⟩
    simp only [exec2NNN, State.push_of_lt s _ h]
  · left
    have h16 : s.sp = 16 := Fin.ext (by simp; omega)
    refine ⟨h16, ?_⟩
    simp only [exec2NNN, State.push_full s _ h16, State.raise]

/-- FX0A: nothing with no key down, else a reported key (R182). -/
theorem execFX0A_cases (x : RegNo) :
    ((∀ k : KeyNo, s.key[k] = false) ∧ execFX0A x s = .next s) ∨
    ∃ k : KeyNo, reportedKey s.cfg.keyPriority s.key = some k ∧ s.key[k] = true ∧
      execFX0A x s = .next ((s.setReg x (BitVec.ofNat 8 k.val)).setPc (s.pc + 2#16)) := by
  cases hr : reportedKey s.cfg.keyPriority s.key with
  | none => exact .inl ⟨(reportedKey_none _ _).mp hr, by simp only [execFX0A, hr]⟩
  | some k =>
    refine .inr ⟨k, rfl, ?_, by simp only [execFX0A, hr]; rfl⟩
    cases hc : s.cfg.keyPriority <;> rw [hc] at hr
    · exact ((reportedKey_highest _ _).mp hr).1
    · exact ((reportedKey_lowest _ _).mp hr).1

/-! ### The image load_program copies -/

/-- MEM after the copy: the image from PROG_BASE up, the reset contents elsewhere (R247). -/
theorem read_copyImage (font : Vector Byte 80) (image : List Byte) (j a : Nat) :
    Memory.read font (copyImage font [] j image) a =
      if h : progBase + j ≤ a ∧ a < progBase + j + image.length then image[a - (progBase + j)]'(by omega)
      else Memory.background font a := by
  induction image generalizing j with
  | nil => rw [dif_neg (by simp)]; rfl
  | cons b rest ih =>
    simp only [copyImage, Memory.read_write, ih (j + 1), List.length_cons]
    by_cases h1 : progBase + j = a
    · subst h1
      rw [if_pos rfl, dif_pos (by omega)]
      simp
    · rw [if_neg h1]
      by_cases h2 : progBase + (j + 1) ≤ a ∧ a < progBase + (j + 1) + rest.length
      · rw [dif_pos h2, dif_pos (by omega)]
        simp only [show a - (progBase + j) = (a - (progBase + (j + 1))) + 1 by omega, List.getElem_cons_succ]
      · rw [dif_neg h2, dif_neg (by omega)]

/-- The copy keeps the canonical form while the image fits (R247). -/
theorem wf_copyImage (font : Vector Byte 80) (image : List Byte) (j : Nat) (h : progBase + j + image.length ≤ memSize) :
    Memory.wf font (copyImage font [] j image) = true := by
  induction image generalizing j with
  | nil => rfl
  | cons b rest ih =>
    simp only [List.length_cons] at h
    exact Memory.wf_write font _ _ b (ih (j + 1) (by omega)) (by omega)

end Sys2Proof.Machine
end

