-- ==== Sys2Proof/Laws/Decode.lean ====
section
/-! SUPPORT. What the fields of a word and the four formats are as numbers, and how they undo each other
(spec/30_encoding.md R72, R73). Every fact about the decoder and the encoder reduces to these. -/

namespace Sys2Proof

/-! ### The fields as numbers -/

theorem fieldOP_toNat (w : Word) : (fieldOP w).toNat = w.toNat / 4096 % 16 := by
  simp [fieldOP, BitVec.extractLsb'_toNat, Nat.shiftRight_eq_div_pow]

theorem fieldX_val (w : Word) : (fieldX w).val = w.toNat / 256 % 16 := by
  simp [fieldX, Nat.shiftRight_eq_div_pow]

theorem fieldY_val (w : Word) : (fieldY w).val = w.toNat / 16 % 16 := by
  simp [fieldY, Nat.shiftRight_eq_div_pow]

theorem fieldN_val (w : Word) : (fieldN w).val = w.toNat % 16 := by
  simp [fieldN]

theorem fieldFn_toNat (w : Word) : (fieldFn w).toNat = w.toNat % 16 := by
  simp [fieldFn, BitVec.extractLsb'_toNat]

theorem fieldNN_toNat (w : Word) : (fieldNN w).toNat = w.toNat % 256 := by
  simp [fieldNN, BitVec.extractLsb'_toNat]

theorem fieldNNN_toNat (w : Word) : (fieldNNN w).toNat = w.toNat % 4096 := by
  simp [fieldNNN, BitVec.extractLsb'_toNat]

theorem highByte_toNat (w : Word) : (highByte w).toNat = w.toNat / 256 := by
  have := w.isLt
  simp [highByte, BitVec.extractLsb'_toNat, Nat.shiftRight_eq_div_pow]
  omega

theorem lowByte_toNat (w : Word) : (lowByte w).toNat = w.toNat % 256 := by
  simp [lowByte, BitVec.extractLsb'_toNat]

/-! ### The formats as numbers -/

/-- An appended pair of bit vectors is the weighted sum of the two numbers. -/
theorem append_toNat {m n : Nat} (a : BitVec m) (b : BitVec n) : (a ++ b).toNat = a.toNat * 2 ^ n + b.toNat := by
  rw [BitVec.toNat_append, ← Nat.shiftLeft_add_eq_or_of_lt b.isLt, Nat.shiftLeft_eq]

theorem composeWord_toNat (hi lo : Byte) : (composeWord hi lo).toNat = hi.toNat * 256 + lo.toNat :=
  append_toNat hi lo

@[simp] theorem nibble_toNat (k : Fin 16) : (nibble k).toNat = k.val := by
  simp [nibble]

theorem wordNNN_toNat (op : BitVec 4) (nnn : Addr) : (wordNNN op nnn).toNat = op.toNat * 4096 + nnn.toNat :=
  append_toNat op nnn

theorem wordXNN_toNat (op : BitVec 4) (x : RegNo) (nn : Byte) :
    (wordXNN op x nn).toNat = op.toNat * 4096 + x.val * 256 + nn.toNat := by
  unfold wordXNN
  rw [append_toNat, append_toNat, nibble_toNat]
  omega

theorem wordXYN_toNat (op : BitVec 4) (x y : RegNo) (n : Fin 16) :
    (wordXYN op x y n).toNat = op.toNat * 4096 + x.val * 256 + y.val * 16 + n.val := by
  unfold wordXYN
  rw [append_toNat, append_toNat, append_toNat, nibble_toNat, nibble_toNat, nibble_toNat]
  omega

/-! ### A format's fields -/

variable (op : BitVec 4) (x y : RegNo) (n : Fin 16) (nn : Byte) (nnn : Addr) (w : Word)

@[simp] theorem fieldOP_wordNNN : fieldOP (wordNNN op nnn) = op := by
  apply BitVec.eq_of_toNat_eq
  have := op.isLt
  have := nnn.isLt
  rw [fieldOP_toNat, wordNNN_toNat]
  omega

@[simp] theorem fieldNNN_wordNNN : fieldNNN (wordNNN op nnn) = nnn := by
  apply BitVec.eq_of_toNat_eq
  have := nnn.isLt
  rw [fieldNNN_toNat, wordNNN_toNat]
  omega

@[simp] theorem fieldOP_wordXNN : fieldOP (wordXNN op x nn) = op := by
  apply BitVec.eq_of_toNat_eq
  have := op.isLt
  have := nn.isLt
  rw [fieldOP_toNat, wordXNN_toNat]
  omega

@[simp] theorem fieldX_wordXNN : fieldX (wordXNN op x nn) = x := by
  apply Fin.ext
  have := nn.isLt
  rw [fieldX_val, wordXNN_toNat]
  omega

@[simp] theorem fieldNN_wordXNN : fieldNN (wordXNN op x nn) = nn := by
  apply BitVec.eq_of_toNat_eq
  have := nn.isLt
  rw [fieldNN_toNat, wordXNN_toNat]
  omega

@[simp] theorem fieldOP_wordXYN : fieldOP (wordXYN op x y n) = op := by
  apply BitVec.eq_of_toNat_eq
  have := op.isLt
  rw [fieldOP_toNat, wordXYN_toNat]
  omega

@[simp] theorem fieldX_wordXYN : fieldX (wordXYN op x y n) = x := by
  apply Fin.ext
  rw [fieldX_val, wordXYN_toNat]
  omega

@[simp] theorem fieldY_wordXYN : fieldY (wordXYN op x y n) = y := by
  apply Fin.ext
  rw [fieldY_val, wordXYN_toNat]
  omega

@[simp] theorem fieldN_wordXYN : fieldN (wordXYN op x y n) = n := by
  apply Fin.ext
  rw [fieldN_val, wordXYN_toNat]
  omega

@[simp] theorem fieldFn_wordXYN : fieldFn (wordXYN op x y n) = nibble n := by
  apply BitVec.eq_of_toNat_eq
  rw [fieldFn_toNat, wordXYN_toNat, nibble_toNat]
  omega

/-! ### A word is its fields -/

theorem wordNNN_fields : wordNNN (fieldOP w) (fieldNNN w) = w := by
  apply BitVec.eq_of_toNat_eq
  have := w.isLt
  rw [wordNNN_toNat, fieldOP_toNat, fieldNNN_toNat]
  omega

theorem wordXNN_fields : wordXNN (fieldOP w) (fieldX w) (fieldNN w) = w := by
  apply BitVec.eq_of_toNat_eq
  have := w.isLt
  rw [wordXNN_toNat, fieldOP_toNat, fieldX_val, fieldNN_toNat]
  omega

theorem wordXYN_fields : wordXYN (fieldOP w) (fieldX w) (fieldY w) (fieldN w) = w := by
  apply BitVec.eq_of_toNat_eq
  have := w.isLt
  rw [wordXYN_toNat, fieldOP_toNat, fieldX_val, fieldY_val, fieldN_val]
  omega

@[simp] theorem composeWord_bytes : composeWord (highByte w) (lowByte w) = w := by
  apply BitVec.eq_of_toNat_eq
  rw [composeWord_toNat, highByte_toNat, lowByte_toNat]
  omega

theorem nibble_fieldX : nibble (fieldX w) = w.extractLsb' 8 4 := by
  apply BitVec.eq_of_toNat_eq
  rw [nibble_toNat]
  rfl

theorem nibble_fieldY : nibble (fieldY w) = w.extractLsb' 4 4 := by
  apply BitVec.eq_of_toNat_eq
  rw [nibble_toNat]
  rfl

theorem nibble_fieldN : nibble (fieldN w) = fieldFn w := by
  apply BitVec.eq_of_toNat_eq
  rw [nibble_toNat]
  rfl

/-- Every value of a nibble is one of sixteen. -/
theorem nibble_cases (o : BitVec 4) : o = 0x0#4 ∨ o = 0x1#4 ∨ o = 0x2#4 ∨ o = 0x3#4 ∨ o = 0x4#4 ∨ o = 0x5#4 ∨ o = 0x6#4 ∨
    o = 0x7#4 ∨ o = 0x8#4 ∨ o = 0x9#4 ∨ o = 0xA#4 ∨ o = 0xB#4 ∨ o = 0xC#4 ∨ o = 0xD#4 ∨ o = 0xE#4 ∨ o = 0xF#4 := by
  have h := o.isLt
  simp only [← BitVec.toNat_inj, BitVec.toNat_ofNat]
  omega

/-! ### Masked words -/

/-! What the three masks of the opcode table keep, as fields (R74). -/

theorem and_F000 : w &&& 0xF000#16 = wordNNN (fieldOP w) 0#12 := by
  apply BitVec.eq_of_getLsbD_eq
  intro k hk
  simp only [wordNNN, fieldOP, BitVec.getLsbD_and, BitVec.getLsbD_append, BitVec.getLsbD_extractLsb']
  interval_cases k <;> simp

theorem and_F00F : w &&& 0xF00F#16 = wordXYN (fieldOP w) 0 0 (fieldN w) := by
  apply BitVec.eq_of_getLsbD_eq
  intro k hk
  simp only [wordXYN, nibble_fieldN, fieldFn, fieldOP, BitVec.getLsbD_and, BitVec.getLsbD_append,
    BitVec.getLsbD_extractLsb']
  interval_cases k <;> simp [nibble]

theorem and_F0FF : w &&& 0xF0FF#16 = wordXNN (fieldOP w) 0 (fieldNN w) := by
  apply BitVec.eq_of_getLsbD_eq
  intro k hk
  simp only [wordXNN, fieldOP, fieldNN, BitVec.getLsbD_and, BitVec.getLsbD_append, BitVec.getLsbD_extractLsb']
  interval_cases k <;> simp [nibble]

/-! ### The one reason to reject a word -/

/-- A word the decoder rejects is rejected as unknown, under its own name (R80). -/
theorem decode_error {w : Word} {r : Reject} (h : decode w = .error r) : r = .unknownOpcode w := by
  unfold decode at h
  split at h
  case h_1 =>
    unfold decodeFamily0 at h
    split at h <;> cases h
    rfl
  case h_9 =>
    unfold decodeFamily8 at h
    split at h <;> cases h
    rfl
  case h_15 =>
    unfold decodeFamilyE at h
    split at h <;> cases h
    rfl
  case h_16 =>
    unfold decodeFamilyF at h
    split at h <;> cases h
    rfl
  all_goals cases h

end Sys2Proof
end

