-- ==== Sys2Proof/Laws/Encodings.lean ====
section
/-! SUPPORT. The `match` and `mask` of every instruction: one lemma for each, that exactly the words under its pattern decode
to it, with the fields of the word as operands (spec/30_encoding.md R74, R76 to R79). -/

namespace Sys2Proof

/-! ### A masked word, as fields -/

theorem mask_F000 (w : Word) (o : BitVec 4) : w &&& 0xF000#16 = wordNNN o 0#12 ↔ fieldOP w = o := by
  rw [and_F000]
  constructor
  · intro h
    simpa using congrArg fieldOP h
  · rintro rfl
    rfl

theorem mask_F00F (w : Word) (o n : BitVec 4) :
    w &&& 0xF00F#16 = wordXYN o 0 0 n.toFin ↔ fieldOP w = o ∧ fieldFn w = n := by
  rw [and_F00F]
  constructor
  · intro h
    have h1 := congrArg fieldOP h
    have h2 := congrArg fieldFn h
    simp only [fieldOP_wordXYN, fieldFn_wordXYN, nibble_fieldN] at h1 h2
    refine ⟨h1, h2.trans (BitVec.eq_of_toNat_eq ?_)⟩
    simp
  · rintro ⟨rfl, rfl⟩
    rfl

theorem mask_F0FF (w : Word) (o : BitVec 4) (nn : Byte) :
    w &&& 0xF0FF#16 = wordXNN o 0 nn ↔ fieldOP w = o ∧ fieldNN w = nn := by
  rw [and_F0FF]
  constructor
  · intro h
    simpa using And.intro (congrArg fieldOP h) (congrArg fieldNN h)
  · rintro ⟨rfl, rfl⟩
    rfl

/-! ### What a decoded instruction says about its word -/

theorem decodeFamily0_fn {w : Word} {i : Instr} (h : decodeFamily0 w = .ok i) :
    fieldOP (encode i) = 0x0#4 ∧ fieldNN (encode i) = fieldNN w := by
  unfold decodeFamily0 at h
  split at h <;> cases h <;> simp_all [encode, wordFN]

theorem decodeFamily8_fn {w : Word} {i : Instr} (h : decodeFamily8 w = .ok i) :
    fieldOP (encode i) = 0x8#4 ∧ fieldFn (encode i) = fieldFn w := by
  unfold decodeFamily8 at h
  split at h <;> cases h <;> simp_all [encode, nibble]

theorem decodeFamilyE_fn {w : Word} {i : Instr} (h : decodeFamilyE w = .ok i) :
    fieldOP (encode i) = 0xE#4 ∧ fieldNN (encode i) = fieldNN w := by
  unfold decodeFamilyE at h
  split at h <;> cases h <;> simp_all [encode]

theorem decodeFamilyF_fn {w : Word} {i : Instr} (h : decodeFamilyF w = .ok i) :
    fieldOP (encode i) = 0xF#4 ∧ fieldNN (encode i) = fieldNN w := by
  unfold decodeFamilyF at h
  split at h <;> cases h <;> simp_all [encode]

/-- The sixteen values of OP, each with what the decoder does there (R76). -/
theorem decode_of_op (w : Word) :
    (fieldOP w = 0x0#4 ∧ decode w = decodeFamily0 w) ∨ (fieldOP w = 0x8#4 ∧ decode w = decodeFamily8 w) ∨
    (fieldOP w = 0xE#4 ∧ decode w = decodeFamilyE w) ∨ (fieldOP w = 0xF#4 ∧ decode w = decodeFamilyF w) ∨
    (fieldOP w ≠ 0x0#4 ∧ fieldOP w ≠ 0x8#4 ∧ fieldOP w ≠ 0xE#4 ∧ fieldOP w ≠ 0xF#4 ∧
      ∃ i, decode w = .ok i ∧ fieldOP (encode i) = fieldOP w) := by
  rcases nibble_cases (fieldOP w) with h | h | h | h | h | h | h | h | h | h | h | h | h | h | h | h <;>
    simp [decode, h, encode]

/-- The instruction's own OP is its word's OP. -/
theorem decode_op {w : Word} {i : Instr} (h : decode w = .ok i) : fieldOP (encode i) = fieldOP w := by
  rcases decode_of_op w with ⟨ho, hd⟩ | ⟨ho, hd⟩ | ⟨ho, hd⟩ | ⟨ho, hd⟩ | ⟨-, -, -, -, j, hd, ho⟩
  · rw [ho, (decodeFamily0_fn (hd.symm.trans h)).1]
  · rw [ho, (decodeFamily8_fn (hd.symm.trans h)).1]
  · rw [ho, (decodeFamilyE_fn (hd.symm.trans h)).1]
  · rw [ho, (decodeFamilyF_fn (hd.symm.trans h)).1]
  · rw [hd] at h
    cases h
    exact ho

/-- In family 8 the instruction's own function code is its word's. -/
theorem decode_fn8 {w : Word} {i : Instr} (h : decode w = .ok i) (ho : fieldOP (encode i) = 0x8#4) :
    fieldFn (encode i) = fieldFn w := by
  have hw := (decode_op h).symm.trans ho
  have hd : decode w = decodeFamily8 w := by simp [decode, hw]
  exact (decodeFamily8_fn (hd.symm.trans h)).2

/-- In families 0, E and F the instruction's own low byte is its word's. -/
theorem decode_nn {w : Word} {i : Instr} (h : decode w = .ok i)
    (ho : fieldOP (encode i) = 0x0#4 ∨ fieldOP (encode i) = 0xE#4 ∨ fieldOP (encode i) = 0xF#4) :
    fieldNN (encode i) = fieldNN w := by
  have hw := decode_op h
  rcases ho with ho | ho | ho <;> rw [ho] at hw
  · have hd : decode w = decodeFamily0 w := by simp [decode, ← hw]
    exact (decodeFamily0_fn (hd.symm.trans h)).2
  · have hd : decode w = decodeFamilyE w := by simp [decode, ← hw]
    exact (decodeFamilyE_fn (hd.symm.trans h)).2
  · have hd : decode w = decodeFamilyF w := by simp [decode, ← hw]
    exact (decodeFamilyF_fn (hd.symm.trans h)).2

/-! ### The 36 patterns -/

theorem decodesAs_op00E0 : DecodesAs 0x00E0#16 0xF0FF#16 (fun _ => .op00E0) := by
  intro w
  refine (mask_F0FF w 0x0#4 0xE0#8).trans ⟨fun h => by simp [decode, decodeFamily0, h.1, h.2], fun h => ?_⟩
  have h1 := decode_op h
  have h2 := decode_nn h (by simp [encode, wordFN])
  exact ⟨by simpa [encode, wordFN] using h1.symm, by simpa [encode, wordFN] using h2.symm⟩

theorem decodesAs_op00EE : DecodesAs 0x00EE#16 0xF0FF#16 (fun _ => .op00EE) := by
  intro w
  refine (mask_F0FF w 0x0#4 0xEE#8).trans ⟨fun h => by simp [decode, decodeFamily0, h.1, h.2], fun h => ?_⟩
  have h1 := decode_op h
  have h2 := decode_nn h (by simp [encode, wordFN])
  exact ⟨by simpa [encode, wordFN] using h1.symm, by simpa [encode, wordFN] using h2.symm⟩

theorem decodesAs_op00FE : DecodesAs 0x00FE#16 0xF0FF#16 (fun _ => .op00FE) := by
  intro w
  refine (mask_F0FF w 0x0#4 0xFE#8).trans ⟨fun h => by simp [decode, decodeFamily0, h.1, h.2], fun h => ?_⟩
  have h1 := decode_op h
  have h2 := decode_nn h (by simp [encode, wordFN])
  exact ⟨by simpa [encode, wordFN] using h1.symm, by simpa [encode, wordFN] using h2.symm⟩

theorem decodesAs_op00FF : DecodesAs 0x00FF#16 0xF0FF#16 (fun _ => .op00FF) := by
  intro w
  refine (mask_F0FF w 0x0#4 0xFF#8).trans ⟨fun h => by simp [decode, decodeFamily0, h.1, h.2], fun h => ?_⟩
  have h1 := decode_op h
  have h2 := decode_nn h (by simp [encode, wordFN])
  exact ⟨by simpa [encode, wordFN] using h1.symm, by simpa [encode, wordFN] using h2.symm⟩

theorem decodesAs_op1NNN : DecodesAs 0x1000#16 0xF000#16 (fun w => .op1NNN (fieldNNN w)) := by
  intro w
  refine (mask_F000 w 0x1#4).trans ⟨fun h => by simp [decode, h], fun h => ?_⟩
  simpa [encode] using (decode_op h).symm

theorem decodesAs_op2NNN : DecodesAs 0x2000#16 0xF000#16 (fun w => .op2NNN (fieldNNN w)) := by
  intro w
  refine (mask_F000 w 0x2#4).trans ⟨fun h => by simp [decode, h], fun h => ?_⟩
  simpa [encode] using (decode_op h).symm

theorem decodesAs_op3XNN : DecodesAs 0x3000#16 0xF000#16 (fun w => .op3XNN (fieldX w) (fieldNN w)) := by
  intro w
  refine (mask_F000 w 0x3#4).trans ⟨fun h => by simp [decode, h], fun h => ?_⟩
  simpa [encode] using (decode_op h).symm

theorem decodesAs_op4XNN : DecodesAs 0x4000#16 0xF000#16 (fun w => .op4XNN (fieldX w) (fieldNN w)) := by
  intro w
  refine (mask_F000 w 0x4#4).trans ⟨fun h => by simp [decode, h], fun h => ?_⟩
  simpa [encode] using (decode_op h).symm

theorem decodesAs_op5XY0 : DecodesAs 0x5000#16 0xF000#16 (fun w => .op5XY0 (fieldX w) (fieldY w)) := by
  intro w
  refine (mask_F000 w 0x5#4).trans ⟨fun h => by simp [decode, h], fun h => ?_⟩
  simpa [encode] using (decode_op h).symm

theorem decodesAs_op6XNN : DecodesAs 0x6000#16 0xF000#16 (fun w => .op6XNN (fieldX w) (fieldNN w)) := by
  intro w
  refine (mask_F000 w 0x6#4).trans ⟨fun h => by simp [decode, h], fun h => ?_⟩
  simpa [encode] using (decode_op h).symm

theorem decodesAs_op7XNN : DecodesAs 0x7000#16 0xF000#16 (fun w => .op7XNN (fieldX w) (fieldNN w)) := by
  intro w
  refine (mask_F000 w 0x7#4).trans ⟨fun h => by simp [decode, h], fun h => ?_⟩
  simpa [encode] using (decode_op h).symm

theorem decodesAs_op8XY0 : DecodesAs 0x8000#16 0xF00F#16 (fun w => .op8XY0 (fieldX w) (fieldY w)) := by
  intro w
  refine (mask_F00F w 0x8#4 0x0#4).trans ⟨fun h => by simp [decode, decodeFamily8, h.1, h.2], fun h => ?_⟩
  have h1 := decode_op h
  have h2 := decode_fn8 h (by simp [encode])
  exact ⟨by simpa [encode] using h1.symm, by simpa [encode, nibble] using h2.symm⟩

theorem decodesAs_op8XY1 : DecodesAs 0x8001#16 0xF00F#16 (fun w => .op8XY1 (fieldX w) (fieldY w)) := by
  intro w
  refine (mask_F00F w 0x8#4 0x1#4).trans ⟨fun h => by simp [decode, decodeFamily8, h.1, h.2], fun h => ?_⟩
  have h1 := decode_op h
  have h2 := decode_fn8 h (by simp [encode])
  exact ⟨by simpa [encode] using h1.symm, by simpa [encode, nibble] using h2.symm⟩

theorem decodesAs_op8XY2 : DecodesAs 0x8002#16 0xF00F#16 (fun w => .op8XY2 (fieldX w) (fieldY w)) := by
  intro w
  refine (mask_F00F w 0x8#4 0x2#4).trans ⟨fun h => by simp [decode, decodeFamily8, h.1, h.2], fun h => ?_⟩
  have h1 := decode_op h
  have h2 := decode_fn8 h (by simp [encode])
  exact ⟨by simpa [encode] using h1.symm, by simpa [encode, nibble] using h2.symm⟩

theorem decodesAs_op8XY3 : DecodesAs 0x8003#16 0xF00F#16 (fun w => .op8XY3 (fieldX w) (fieldY w)) := by
  intro w
  refine (mask_F00F w 0x8#4 0x3#4).trans ⟨fun h => by simp [decode, decodeFamily8, h.1, h.2], fun h => ?_⟩
  have h1 := decode_op h
  have h2 := decode_fn8 h (by simp [encode])
  exact ⟨by simpa [encode] using h1.symm, by simpa [encode, nibble] using h2.symm⟩

theorem decodesAs_op8XY4 : DecodesAs 0x8004#16 0xF00F#16 (fun w => .op8XY4 (fieldX w) (fieldY w)) := by
  intro w
  refine (mask_F00F w 0x8#4 0x4#4).trans ⟨fun h => by simp [decode, decodeFamily8, h.1, h.2], fun h => ?_⟩
  have h1 := decode_op h
  have h2 := decode_fn8 h (by simp [encode])
  exact ⟨by simpa [encode] using h1.symm, by simpa [encode, nibble] using h2.symm⟩

theorem decodesAs_op8XY5 : DecodesAs 0x8005#16 0xF00F#16 (fun w => .op8XY5 (fieldX w) (fieldY w)) := by
  intro w
  refine (mask_F00F w 0x8#4 0x5#4).trans ⟨fun h => by simp [decode, decodeFamily8, h.1, h.2], fun h => ?_⟩
  have h1 := decode_op h
  have h2 := decode_fn8 h (by simp [encode])
  exact ⟨by simpa [encode] using h1.symm, by simpa [encode, nibble] using h2.symm⟩

theorem decodesAs_op8XY6 : DecodesAs 0x8006#16 0xF00F#16 (fun w => .op8XY6 (fieldX w) (fieldY w)) := by
  intro w
  refine (mask_F00F w 0x8#4 0x6#4).trans ⟨fun h => by simp [decode, decodeFamily8, h.1, h.2], fun h => ?_⟩
  have h1 := decode_op h
  have h2 := decode_fn8 h (by simp [encode])
  exact ⟨by simpa [encode] using h1.symm, by simpa [encode, nibble] using h2.symm⟩

theorem decodesAs_op8XY7 : DecodesAs 0x8007#16 0xF00F#16 (fun w => .op8XY7 (fieldX w) (fieldY w)) := by
  intro w
  refine (mask_F00F w 0x8#4 0x7#4).trans ⟨fun h => by simp [decode, decodeFamily8, h.1, h.2], fun h => ?_⟩
  have h1 := decode_op h
  have h2 := decode_fn8 h (by simp [encode])
  exact ⟨by simpa [encode] using h1.symm, by simpa [encode, nibble] using h2.symm⟩

theorem decodesAs_op8XYE : DecodesAs 0x800E#16 0xF00F#16 (fun w => .op8XYE (fieldX w) (fieldY w)) := by
  intro w
  refine (mask_F00F w 0x8#4 0xE#4).trans ⟨fun h => by simp [decode, decodeFamily8, h.1, h.2], fun h => ?_⟩
  have h1 := decode_op h
  have h2 := decode_fn8 h (by simp [encode])
  exact ⟨by simpa [encode] using h1.symm, by simpa [encode, nibble] using h2.symm⟩

theorem decodesAs_op9XY0 : DecodesAs 0x9000#16 0xF000#16 (fun w => .op9XY0 (fieldX w) (fieldY w)) := by
  intro w
  refine (mask_F000 w 0x9#4).trans ⟨fun h => by simp [decode, h], fun h => ?_⟩
  simpa [encode] using (decode_op h).symm

theorem decodesAs_opANNN : DecodesAs 0xA000#16 0xF000#16 (fun w => .opANNN (fieldNNN w)) := by
  intro w
  refine (mask_F000 w 0xA#4).trans ⟨fun h => by simp [decode, h], fun h => ?_⟩
  simpa [encode] using (decode_op h).symm

theorem decodesAs_opBNNN : DecodesAs 0xB000#16 0xF000#16 (fun w => .opBNNN (fieldNNN w)) := by
  intro w
  refine (mask_F000 w 0xB#4).trans ⟨fun h => by simp [decode, h], fun h => ?_⟩
  simpa [encode] using (decode_op h).symm

theorem decodesAs_opCXNN : DecodesAs 0xC000#16 0xF000#16 (fun w => .opCXNN (fieldX w) (fieldNN w)) := by
  intro w
  refine (mask_F000 w 0xC#4).trans ⟨fun h => by simp [decode, h], fun h => ?_⟩
  simpa [encode] using (decode_op h).symm

theorem decodesAs_opDXYN : DecodesAs 0xD000#16 0xF000#16 (fun w => .opDXYN (fieldX w) (fieldY w) (fieldN w)) := by
  intro w
  refine (mask_F000 w 0xD#4).trans ⟨fun h => by simp [decode, h], fun h => ?_⟩
  simpa [encode] using (decode_op h).symm

theorem decodesAs_opEX9E : DecodesAs 0xE09E#16 0xF0FF#16 (fun w => .opEX9E (fieldX w)) := by
  intro w
  refine (mask_F0FF w 0xE#4 0x9E#8).trans ⟨fun h => by simp [decode, decodeFamilyE, h.1, h.2], fun h => ?_⟩
  have h1 := decode_op h
  have h2 := decode_nn h (by simp [encode])
  exact ⟨by simpa [encode] using h1.symm, by simpa [encode] using h2.symm⟩

theorem decodesAs_opEXA1 : DecodesAs 0xE0A1#16 0xF0FF#16 (fun w => .opEXA1 (fieldX w)) := by
  intro w
  refine (mask_F0FF w 0xE#4 0xA1#8).trans ⟨fun h => by simp [decode, decodeFamilyE, h.1, h.2], fun h => ?_⟩
  have h1 := decode_op h
  have h2 := decode_nn h (by simp [encode])
  exact ⟨by simpa [encode] using h1.symm, by simpa [encode] using h2.symm⟩

theorem decodesAs_opFX07 : DecodesAs 0xF007#16 0xF0FF#16 (fun w => .opFX07 (fieldX w)) := by
  intro w
  refine (mask_F0FF w 0xF#4 0x07#8).trans ⟨fun h => by simp [decode, decodeFamilyF, h.1, h.2], fun h => ?_⟩
  have h1 := decode_op h
  have h2 := decode_nn h (by simp [encode])
  exact ⟨by simpa [encode] using h1.symm, by simpa [encode] using h2.symm⟩

theorem decodesAs_opFX0A : DecodesAs 0xF00A#16 0xF0FF#16 (fun w => .opFX0A (fieldX w)) := by
  intro w
  refine (mask_F0FF w 0xF#4 0x0A#8).trans ⟨fun h => by simp [decode, decodeFamilyF, h.1, h.2], fun h => ?_⟩
  have h1 := decode_op h
  have h2 := decode_nn h (by simp [encode])
  exact ⟨by simpa [encode] using h1.symm, by simpa [encode] using h2.symm⟩

theorem decodesAs_opFX15 : DecodesAs 0xF015#16 0xF0FF#16 (fun w => .opFX15 (fieldX w)) := by
  intro w
  refine (mask_F0FF w 0xF#4 0x15#8).trans ⟨fun h => by simp [decode, decodeFamilyF, h.1, h.2], fun h => ?_⟩
  have h1 := decode_op h
  have h2 := decode_nn h (by simp [encode])
  exact ⟨by simpa [encode] using h1.symm, by simpa [encode] using h2.symm⟩

theorem decodesAs_opFX18 : DecodesAs 0xF018#16 0xF0FF#16 (fun w => .opFX18 (fieldX w)) := by
  intro w
  refine (mask_F0FF w 0xF#4 0x18#8).trans ⟨fun h => by simp [decode, decodeFamilyF, h.1, h.2], fun h => ?_⟩
  have h1 := decode_op h
  have h2 := decode_nn h (by simp [encode])
  exact ⟨by simpa [encode] using h1.symm, by simpa [encode] using h2.symm⟩

theorem decodesAs_opFX1E : DecodesAs 0xF01E#16 0xF0FF#16 (fun w => .opFX1E (fieldX w)) := by
  intro w
  refine (mask_F0FF w 0xF#4 0x1E#8).trans ⟨fun h => by simp [decode, decodeFamilyF, h.1, h.2], fun h => ?_⟩
  have h1 := decode_op h
  have h2 := decode_nn h (by simp [encode])
  exact ⟨by simpa [encode] using h1.symm, by simpa [encode] using h2.symm⟩

theorem decodesAs_opFX29 : DecodesAs 0xF029#16 0xF0FF#16 (fun w => .opFX29 (fieldX w)) := by
  intro w
  refine (mask_F0FF w 0xF#4 0x29#8).trans ⟨fun h => by simp [decode, decodeFamilyF, h.1, h.2], fun h => ?_⟩
  have h1 := decode_op h
  have h2 := decode_nn h (by simp [encode])
  exact ⟨by simpa [encode] using h1.symm, by simpa [encode] using h2.symm⟩

theorem decodesAs_opFX33 : DecodesAs 0xF033#16 0xF0FF#16 (fun w => .opFX33 (fieldX w)) := by
  intro w
  refine (mask_F0FF w 0xF#4 0x33#8).trans ⟨fun h => by simp [decode, decodeFamilyF, h.1, h.2], fun h => ?_⟩
  have h1 := decode_op h
  have h2 := decode_nn h (by simp [encode])
  exact ⟨by simpa [encode] using h1.symm, by simpa [encode] using h2.symm⟩

theorem decodesAs_opFX55 : DecodesAs 0xF055#16 0xF0FF#16 (fun w => .opFX55 (fieldX w)) := by
  intro w
  refine (mask_F0FF w 0xF#4 0x55#8).trans ⟨fun h => by simp [decode, decodeFamilyF, h.1, h.2], fun h => ?_⟩
  have h1 := decode_op h
  have h2 := decode_nn h (by simp [encode])
  exact ⟨by simpa [encode] using h1.symm, by simpa [encode] using h2.symm⟩

theorem decodesAs_opFX65 : DecodesAs 0xF065#16 0xF0FF#16 (fun w => .opFX65 (fieldX w)) := by
  intro w
  refine (mask_F0FF w 0xF#4 0x65#8).trans ⟨fun h => by simp [decode, decodeFamilyF, h.1, h.2], fun h => ?_⟩
  have h1 := decode_op h
  have h2 := decode_nn h (by simp [encode])
  exact ⟨by simpa [encode] using h1.symm, by simpa [encode] using h2.symm⟩

end Sys2Proof
end

