-- ==== Sys2Proof/Laws/PerInstr.lean ====
section
/-! SUPPORT. What holds of every instruction as syntax, one lemma per constructor. Family `Encoding`: the instruction is
well-formed, and its word is selected by its own row of the opcode table (spec/30_encoding.md R72, R74). -/

namespace Sys2Proof

@[simp] theorem Field.nibble_fits (k : Fin 16) : (Field.nibble k).fits = true :=
  decide_eq_true k.isLt

@[simp] theorem Field.low8_fits (b : Byte) : (Field.low8 b).fits = true :=
  decide_eq_true b.isLt

@[simp] theorem Field.low12_fits (a : Addr) : (Field.low12 a).fits = true :=
  decide_eq_true a.isLt

namespace Laws.Encoding

/-- The instruction is well-formed and its word is selected by its own row of the table. -/
def Statement (i : Instr) : Prop :=
  i.wf = true ∧ ∃ r ∈ opcodeTable, r.mnemonic = i.mnemonic ∧ r.selects (encode i) = true

theorem op00E0 : Statement (.op00E0) := by
  refine ⟨by simp [Instr.wf, Instr.fields], ⟨"00E0", 0x00E0#16, 0xF0FF#16⟩, by decide, rfl, ?_⟩
  simp [OpcodeRow.selects, encode, wordFN, and_F0FF]
  decide

theorem op00EE : Statement (.op00EE) := by
  refine ⟨by simp [Instr.wf, Instr.fields], ⟨"00EE", 0x00EE#16, 0xF0FF#16⟩, by decide, rfl, ?_⟩
  simp [OpcodeRow.selects, encode, wordFN, and_F0FF]
  decide

theorem op00FE : Statement (.op00FE) := by
  refine ⟨by simp [Instr.wf, Instr.fields], ⟨"00FE", 0x00FE#16, 0xF0FF#16⟩, by decide, rfl, ?_⟩
  simp [OpcodeRow.selects, encode, wordFN, and_F0FF]
  decide

theorem op00FF : Statement (.op00FF) := by
  refine ⟨by simp [Instr.wf, Instr.fields], ⟨"00FF", 0x00FF#16, 0xF0FF#16⟩, by decide, rfl, ?_⟩
  simp [OpcodeRow.selects, encode, wordFN, and_F0FF]
  decide

theorem op1NNN (nnn : Addr) : Statement (.op1NNN nnn) := by
  refine ⟨by simp [Instr.wf, Instr.fields], ⟨"1NNN", 0x1000#16, 0xF000#16⟩, by decide, rfl, ?_⟩
  simp [OpcodeRow.selects, encode, and_F000]
  decide

theorem op2NNN (nnn : Addr) : Statement (.op2NNN nnn) := by
  refine ⟨by simp [Instr.wf, Instr.fields], ⟨"2NNN", 0x2000#16, 0xF000#16⟩, by decide, rfl, ?_⟩
  simp [OpcodeRow.selects, encode, and_F000]
  decide

theorem op3XNN (x : RegNo) (nn : Byte) : Statement (.op3XNN x nn) := by
  refine ⟨by simp [Instr.wf, Instr.fields], ⟨"3XNN", 0x3000#16, 0xF000#16⟩, by decide, rfl, ?_⟩
  simp [OpcodeRow.selects, encode, and_F000]
  decide

theorem op4XNN (x : RegNo) (nn : Byte) : Statement (.op4XNN x nn) := by
  refine ⟨by simp [Instr.wf, Instr.fields], ⟨"4XNN", 0x4000#16, 0xF000#16⟩, by decide, rfl, ?_⟩
  simp [OpcodeRow.selects, encode, and_F000]
  decide

theorem op5XY0 (x : RegNo) (y : RegNo) : Statement (.op5XY0 x y) := by
  refine ⟨by simp [Instr.wf, Instr.fields], ⟨"5XY0", 0x5000#16, 0xF000#16⟩, by decide, rfl, ?_⟩
  simp [OpcodeRow.selects, encode, and_F000]
  decide

theorem op6XNN (x : RegNo) (nn : Byte) : Statement (.op6XNN x nn) := by
  refine ⟨by simp [Instr.wf, Instr.fields], ⟨"6XNN", 0x6000#16, 0xF000#16⟩, by decide, rfl, ?_⟩
  simp [OpcodeRow.selects, encode, and_F000]
  decide

theorem op7XNN (x : RegNo) (nn : Byte) : Statement (.op7XNN x nn) := by
  refine ⟨by simp [Instr.wf, Instr.fields], ⟨"7XNN", 0x7000#16, 0xF000#16⟩, by decide, rfl, ?_⟩
  simp [OpcodeRow.selects, encode, and_F000]
  decide

theorem op8XY0 (x : RegNo) (y : RegNo) : Statement (.op8XY0 x y) := by
  refine ⟨by simp [Instr.wf, Instr.fields], ⟨"8XY0", 0x8000#16, 0xF00F#16⟩, by decide, rfl, ?_⟩
  simp [OpcodeRow.selects, encode, and_F00F]
  decide

theorem op8XY1 (x : RegNo) (y : RegNo) : Statement (.op8XY1 x y) := by
  refine ⟨by simp [Instr.wf, Instr.fields], ⟨"8XY1", 0x8001#16, 0xF00F#16⟩, by decide, rfl, ?_⟩
  simp [OpcodeRow.selects, encode, and_F00F]
  decide

theorem op8XY2 (x : RegNo) (y : RegNo) : Statement (.op8XY2 x y) := by
  refine ⟨by simp [Instr.wf, Instr.fields], ⟨"8XY2", 0x8002#16, 0xF00F#16⟩, by decide, rfl, ?_⟩
  simp [OpcodeRow.selects, encode, and_F00F]
  decide

theorem op8XY3 (x : RegNo) (y : RegNo) : Statement (.op8XY3 x y) := by
  refine ⟨by simp [Instr.wf, Instr.fields], ⟨"8XY3", 0x8003#16, 0xF00F#16⟩, by decide, rfl, ?_⟩
  simp [OpcodeRow.selects, encode, and_F00F]
  decide

theorem op8XY4 (x : RegNo) (y : RegNo) : Statement (.op8XY4 x y) := by
  refine ⟨by simp [Instr.wf, Instr.fields], ⟨"8XY4", 0x8004#16, 0xF00F#16⟩, by decide, rfl, ?_⟩
  simp [OpcodeRow.selects, encode, and_F00F]
  decide

theorem op8XY5 (x : RegNo) (y : RegNo) : Statement (.op8XY5 x y) := by
  refine ⟨by simp [Instr.wf, Instr.fields], ⟨"8XY5", 0x8005#16, 0xF00F#16⟩, by decide, rfl, ?_⟩
  simp [OpcodeRow.selects, encode, and_F00F]
  decide

theorem op8XY6 (x : RegNo) (y : RegNo) : Statement (.op8XY6 x y) := by
  refine ⟨by simp [Instr.wf, Instr.fields], ⟨"8XY6", 0x8006#16, 0xF00F#16⟩, by decide, rfl, ?_⟩
  simp [OpcodeRow.selects, encode, and_F00F]
  decide

theorem op8XY7 (x : RegNo) (y : RegNo) : Statement (.op8XY7 x y) := by
  refine ⟨by simp [Instr.wf, Instr.fields], ⟨"8XY7", 0x8007#16, 0xF00F#16⟩, by decide, rfl, ?_⟩
  simp [OpcodeRow.selects, encode, and_F00F]
  decide

theorem op8XYE (x : RegNo) (y : RegNo) : Statement (.op8XYE x y) := by
  refine ⟨by simp [Instr.wf, Instr.fields], ⟨"8XYE", 0x800E#16, 0xF00F#16⟩, by decide, rfl, ?_⟩
  simp [OpcodeRow.selects, encode, and_F00F]
  decide

theorem op9XY0 (x : RegNo) (y : RegNo) : Statement (.op9XY0 x y) := by
  refine ⟨by simp [Instr.wf, Instr.fields], ⟨"9XY0", 0x9000#16, 0xF000#16⟩, by decide, rfl, ?_⟩
  simp [OpcodeRow.selects, encode, and_F000]
  decide

theorem opANNN (nnn : Addr) : Statement (.opANNN nnn) := by
  refine ⟨by simp [Instr.wf, Instr.fields], ⟨"ANNN", 0xA000#16, 0xF000#16⟩, by decide, rfl, ?_⟩
  simp [OpcodeRow.selects, encode, and_F000]
  decide

theorem opBNNN (nnn : Addr) : Statement (.opBNNN nnn) := by
  refine ⟨by simp [Instr.wf, Instr.fields], ⟨"BNNN", 0xB000#16, 0xF000#16⟩, by decide, rfl, ?_⟩
  simp [OpcodeRow.selects, encode, and_F000]
  decide

theorem opCXNN (x : RegNo) (nn : Byte) : Statement (.opCXNN x nn) := by
  refine ⟨by simp [Instr.wf, Instr.fields], ⟨"CXNN", 0xC000#16, 0xF000#16⟩, by decide, rfl, ?_⟩
  simp [OpcodeRow.selects, encode, and_F000]
  decide

theorem opDXYN (x : RegNo) (y : RegNo) (n : Fin 16) : Statement (.opDXYN x y n) := by
  refine ⟨by simp [Instr.wf, Instr.fields], ⟨"DXYN", 0xD000#16, 0xF000#16⟩, by decide, rfl, ?_⟩
  simp [OpcodeRow.selects, encode, and_F000]
  decide

theorem opEX9E (x : RegNo) : Statement (.opEX9E x) := by
  refine ⟨by simp [Instr.wf, Instr.fields], ⟨"EX9E", 0xE09E#16, 0xF0FF#16⟩, by decide, rfl, ?_⟩
  simp [OpcodeRow.selects, encode, and_F0FF]
  decide

theorem opEXA1 (x : RegNo) : Statement (.opEXA1 x) := by
  refine ⟨by simp [Instr.wf, Instr.fields], ⟨"EXA1", 0xE0A1#16, 0xF0FF#16⟩, by decide, rfl, ?_⟩
  simp [OpcodeRow.selects, encode, and_F0FF]
  decide

theorem opFX07 (x : RegNo) : Statement (.opFX07 x) := by
  refine ⟨by simp [Instr.wf, Instr.fields], ⟨"FX07", 0xF007#16, 0xF0FF#16⟩, by decide, rfl, ?_⟩
  simp [OpcodeRow.selects, encode, and_F0FF]
  decide

theorem opFX0A (x : RegNo) : Statement (.opFX0A x) := by
  refine ⟨by simp [Instr.wf, Instr.fields], ⟨"FX0A", 0xF00A#16, 0xF0FF#16⟩, by decide, rfl, ?_⟩
  simp [OpcodeRow.selects, encode, and_F0FF]
  decide

theorem opFX15 (x : RegNo) : Statement (.opFX15 x) := by
  refine ⟨by simp [Instr.wf, Instr.fields], ⟨"FX15", 0xF015#16, 0xF0FF#16⟩, by decide, rfl, ?_⟩
  simp [OpcodeRow.selects, encode, and_F0FF]
  decide

theorem opFX18 (x : RegNo) : Statement (.opFX18 x) := by
  refine ⟨by simp [Instr.wf, Instr.fields], ⟨"FX18", 0xF018#16, 0xF0FF#16⟩, by decide, rfl, ?_⟩
  simp [OpcodeRow.selects, encode, and_F0FF]
  decide

theorem opFX1E (x : RegNo) : Statement (.opFX1E x) := by
  refine ⟨by simp [Instr.wf, Instr.fields], ⟨"FX1E", 0xF01E#16, 0xF0FF#16⟩, by decide, rfl, ?_⟩
  simp [OpcodeRow.selects, encode, and_F0FF]
  decide

theorem opFX29 (x : RegNo) : Statement (.opFX29 x) := by
  refine ⟨by simp [Instr.wf, Instr.fields], ⟨"FX29", 0xF029#16, 0xF0FF#16⟩, by decide, rfl, ?_⟩
  simp [OpcodeRow.selects, encode, and_F0FF]
  decide

theorem opFX33 (x : RegNo) : Statement (.opFX33 x) := by
  refine ⟨by simp [Instr.wf, Instr.fields], ⟨"FX33", 0xF033#16, 0xF0FF#16⟩, by decide, rfl, ?_⟩
  simp [OpcodeRow.selects, encode, and_F0FF]
  decide

theorem opFX55 (x : RegNo) : Statement (.opFX55 x) := by
  refine ⟨by simp [Instr.wf, Instr.fields], ⟨"FX55", 0xF055#16, 0xF0FF#16⟩, by decide, rfl, ?_⟩
  simp [OpcodeRow.selects, encode, and_F0FF]
  decide

theorem opFX65 (x : RegNo) : Statement (.opFX65 x) := by
  refine ⟨by simp [Instr.wf, Instr.fields], ⟨"FX65", 0xF065#16, 0xF0FF#16⟩, by decide, rfl, ?_⟩
  simp [OpcodeRow.selects, encode, and_F0FF]
  decide

end Laws.Encoding

end Sys2Proof
end

