-- ==== Sys2Proof/Machine/Assembler.lean ====
section
/-! DEFINITION. The assembler of the spec's programs: the spelling of the instructions, the two directives, and assembling
from PROG_BASE up (spec/30_encoding.md R85, R86). Presentation only: no step uses it. -/

namespace Sys2Proof.Machine

/-- A number below 16 as a hexadecimal digit (R7). -/
def hexDigit (k : Nat) : String := (#["0", "1", "2", "3", "4", "5", "6", "7", "8", "9", "A", "B", "C", "D", "E", "F"]).getD k "?"

/-- `nn`: an 8-bit number (R85). -/
def asmByte (b : Byte) : String := "0x" ++ hexDigit (b.toNat / 16) ++ hexDigit (b.toNat % 16)

/-- `nnn`: a 12-bit number (R85). -/
def asmAddr (a : Addr) : String :=
  "0x" ++ hexDigit (a.toNat / 256) ++ hexDigit (a.toNat / 16 % 16) ++ hexDigit (a.toNat % 16)

/-- `Vx`: V0 to VF (R21, R85). -/
def asmReg (r : RegNo) : String := "V" ++ hexDigit r.val

/-- The assembler spelling of an instruction, its destination first (R85). -/
def asmText : Instr → String
  | .op00E0 => "CLS"
  | .op00EE => "RET"
  | .op00FE => "LOW"
  | .op00FF => "HIGH"
  | .op1NNN nnn => "JP " ++ asmAddr nnn
  | .op2NNN nnn => "CALL " ++ asmAddr nnn
  | .op3XNN x nn => "SE " ++ asmReg x ++ ", " ++ asmByte nn
  | .op4XNN x nn => "SNE " ++ asmReg x ++ ", " ++ asmByte nn
  | .op5XY0 x y => "SE " ++ asmReg x ++ ", " ++ asmReg y
  | .op6XNN x nn => "LD " ++ asmReg x ++ ", " ++ asmByte nn
  | .op7XNN x nn => "ADD " ++ asmReg x ++ ", " ++ asmByte nn
  | .op8XY0 x y => "LD " ++ asmReg x ++ ", " ++ asmReg y
  | .op8XY1 x y => "OR " ++ asmReg x ++ ", " ++ asmReg y
  | .op8XY2 x y => "AND " ++ asmReg x ++ ", " ++ asmReg y
  | .op8XY3 x y => "XOR " ++ asmReg x ++ ", " ++ asmReg y
  | .op8XY4 x y => "ADD " ++ asmReg x ++ ", " ++ asmReg y
  | .op8XY5 x y => "SUB " ++ asmReg x ++ ", " ++ asmReg y
  | .op8XY6 x _ => "SHR " ++ asmReg x
  | .op8XY7 x y => "SUBN " ++ asmReg x ++ ", " ++ asmReg y
  | .op8XYE x _ => "SHL " ++ asmReg x
  | .op9XY0 x y => "SNE " ++ asmReg x ++ ", " ++ asmReg y
  | .opANNN nnn => "LD I, " ++ asmAddr nnn
  | .opBNNN nnn => "JP V0, " ++ asmAddr nnn
  | .opCXNN x nn => "RND " ++ asmReg x ++ ", " ++ asmByte nn
  | .opDXYN x y n => "DRW " ++ asmReg x ++ ", " ++ asmReg y ++ ", " ++ toString n.val
  | .opEX9E x => "SKP " ++ asmReg x
  | .opEXA1 x => "SKNP " ++ asmReg x
  | .opFX07 x => "LD " ++ asmReg x ++ ", DT"
  | .opFX0A x => "LD " ++ asmReg x ++ ", K"
  | .opFX15 x => "LD DT, " ++ asmReg x
  | .opFX18 x => "LD ST, " ++ asmReg x
  | .opFX1E x => "ADD I, " ++ asmReg x
  | .opFX29 x => "LD F, " ++ asmReg x
  | .opFX33 x => "LD B, " ++ asmReg x
  | .opFX55 x => "LD [I], " ++ asmReg x
  | .opFX65 x => "LD " ++ asmReg x ++ ", [I]"

/-- The instructions whose operand `nnn` may be a label (R85). -/
inductive LabelUse where
  | jp
  | call
  | ldI
  | jpV0
  deriving DecidableEq, Repr

/-- The instruction with the label's address in place. -/
def LabelUse.instr (u : LabelUse) (a : Addr) : Instr :=
  match u with
  | .jp => .op1NNN a
  | .call => .op2NNN a
  | .ldI => .opANNN a
  | .jpV0 => .opBNNN a

/-- One line of a program: an instruction, one with a label for `nnn`, or a directive (R85, R86). -/
inductive AsmLine where
  | instr (i : Instr)
  | withLabel (u : LabelUse) (name : String)
  /-- `label:` names the address of the next byte -/
  | label (name : String)
  /-- `DB b, ...` places literal bytes -/
  | db (bytes : List Byte)
  deriving DecidableEq, Repr

/-- How many bytes a line takes. -/
def AsmLine.size : AsmLine → Nat
  | .instr _ => 2
  | .withLabel _ _ => 2
  | .label _ => 0
  | .db bytes => bytes.length

/-- The address a label names, when the lines stand from address `a` up. -/
def labelAddress (name : String) : Nat → List AsmLine → Option Nat
  | _, [] => none
  | a, line :: rest => if line = .label name then some a else labelAddress name (a + line.size) rest

/-- The bytes of one line, given what the labels name; none when it uses a label that is not there. -/
def AsmLine.bytes (address : String → Option Nat) : AsmLine → Option (List Byte)
  | .instr i => some (encodeBytes i)
  | .withLabel u name => (address name).map fun a => encodeBytes (u.instr (BitVec.ofNat 12 a))
  | .label _ => some []
  | .db bytes => some bytes

/-- Assemble a program from 0x200 upward, each instruction its high byte then its low byte (R86). -/
def assemble (lines : List AsmLine) : Option (List Byte) :=
  (lines.mapM (AsmLine.bytes fun name => labelAddress name progBase lines)).map List.flatten

end Sys2Proof.Machine
end

