-- ==== Sys2Proof/Tests/Slice0.lean ====
section
/-! SUPPORT. The model's own tests: the WellFormed smoke, one word of every constructor written out from the spec's
encoding, one-step tests whose expected results are the vectors of spec/95_test_vectors.md (named in each docstring), and a
witness for the hypotheses of every obligation that has some. -/

open Sys2Proof Sys2Proof.Machine

namespace Sys2Proof.Tests

/-! ### Well-formedness -/

/-- A register number of 16 does not fit its four bits. -/
theorem test_wf_nibble_refused : Field.fits { value := 16, width := 4 } = false := by decide
/-- An immediate of 256 does not fit NN. -/
theorem test_wf_low8_refused : Field.fits { value := 256, width := 8 } = false := by decide
/-- An address of 4096 does not fit NNN. -/
theorem test_wf_low12_refused : Field.fits { value := 4096, width := 12 } = false := by decide
theorem test_wf_accepted : Instr.wf (.opDXYN 0xF 0xF 0xF) = true ∧ Instr.wf (.op1NNN 0xFFF#12) = true := by decide

/-! ### Decoding: words written out bit by bit -/

/-- R77. -/
theorem test_decode_family0 :
    decode 0b0000_0000_1110_0000#16 = .ok .op00E0 ∧ decode 0b0000_0000_1110_1110#16 = .ok .op00EE ∧
    decode 0b0000_0000_1111_1110#16 = .ok .op00FE ∧ decode 0b0000_0000_1111_1111#16 = .ok .op00FF := by decide
/-- R76: 1NNN to 5XY0. -/
theorem test_decode_jumps_and_skips :
    decode 0b0001_1010_1011_1100#16 = .ok (.op1NNN 0xABC#12) ∧ decode 0b0010_0011_0100_0101#16 = .ok (.op2NNN 0x345#12) ∧
    decode 0b0011_1010_0100_0010#16 = .ok (.op3XNN 0xA 0x42#8) ∧ decode 0b0100_1010_0100_0010#16 = .ok (.op4XNN 0xA 0x42#8) ∧
    decode 0b0101_0001_0010_0000#16 = .ok (.op5XY0 1 2) ∧ decode 0b1001_0001_0010_0000#16 = .ok (.op9XY0 1 2) := by decide
/-- R76: 6XNN and 7XNN. -/
theorem test_decode_immediate :
    decode 0b0110_1010_0100_0010#16 = .ok (.op6XNN 0xA 0x42#8) ∧
    decode 0b0111_0011_0000_0001#16 = .ok (.op7XNN 3 0x01#8) := by decide
/-- R78. -/
theorem test_decode_family8 :
    decode 0b1000_0001_0010_0000#16 = .ok (.op8XY0 1 2) ∧ decode 0b1000_0001_0010_0001#16 = .ok (.op8XY1 1 2) ∧
    decode 0b1000_0001_0010_0010#16 = .ok (.op8XY2 1 2) ∧ decode 0b1000_0001_0010_0011#16 = .ok (.op8XY3 1 2) ∧
    decode 0b1000_0001_0010_0100#16 = .ok (.op8XY4 1 2) ∧ decode 0b1000_0001_0010_0101#16 = .ok (.op8XY5 1 2) ∧
    decode 0b1000_0001_0010_0110#16 = .ok (.op8XY6 1 2) ∧ decode 0b1000_0001_0010_0111#16 = .ok (.op8XY7 1 2) ∧
    decode 0b1000_0001_0010_1110#16 = .ok (.op8XYE 1 2) := by decide
/-- R76: ANNN to DXYN. -/
theorem test_decode_index_random_draw :
    decode 0b1010_0001_0010_0011#16 = .ok (.opANNN 0x123#12) ∧ decode 0b1011_0011_0000_0000#16 = .ok (.opBNNN 0x300#12) ∧
    decode 0b1100_0011_0000_1111#16 = .ok (.opCXNN 3 0x0F#8) ∧ decode 0b1101_0001_0010_0101#16 = .ok (.opDXYN 1 2 5) := by
  decide
/-- R79. -/
theorem test_decode_family_e_f :
    decode 0b1110_0010_1001_1110#16 = .ok (.opEX9E 2) ∧ decode 0b1110_0010_1010_0001#16 = .ok (.opEXA1 2) ∧
    decode 0b1111_0011_0000_0111#16 = .ok (.opFX07 3) ∧ decode 0b1111_0101_0000_1010#16 = .ok (.opFX0A 5) ∧
    decode 0b1111_0011_0001_0101#16 = .ok (.opFX15 3) ∧ decode 0b1111_0011_0001_1000#16 = .ok (.opFX18 3) ∧
    decode 0b1111_0010_0001_1110#16 = .ok (.opFX1E 2) ∧ decode 0b1111_0010_0010_1001#16 = .ok (.opFX29 2) ∧
    decode 0b1111_0100_0011_0011#16 = .ok (.opFX33 4) ∧ decode 0b1111_0010_0101_0101#16 = .ok (.opFX55 2) ∧
    decode 0b1111_0010_0110_0101#16 = .ok (.opFX65 2) := by decide
/-- R82: T0.4, T0.12, T1.17, T1.21; the ignored bits change nothing. -/
theorem test_decode_ignored_bits :
    decode 0x0AE0#16 = .ok .op00E0 ∧ decode 0x05FF#16 = .ok .op00FF ∧ decode 0x512F#16 = .ok (.op5XY0 1 2) ∧
    decode 0x9125#16 = .ok (.op9XY0 1 2) := by decide
/-- R81: T0.13 to T0.17, T3.37 to T3.39, T6.9, T6.10, T7.47 to T7.50. -/
theorem test_decode_unknown :
    [0x0000#16, 0x00FD#16, 0x00C4#16, 0x0123#16, 0x00E1#16, 0x8128#16, 0x812F#16, 0x812D#16, 0xE200#16, 0xE29F#16, 0xF300#16,
      0xF375#16, 0xF330#16, 0xF31F#16].all (fun w => decode w == .error (.unknownOpcode w)) = true := by decide
/-- R72: one byte is no instruction. -/
theorem test_decode_truncated : decodeBytes [0x60#8] = .error .truncated := by decide
/-- The table's numbering: bit 0 is the least significant bit of the word (R7). -/
theorem test_decode_table_word : decodeTableWord 16 0xD125 = some (.opDXYN 1 2 5) ∧ decodeTableWord 16 0x0000 = none := by
  decide

/-! ### One step -/

/-- The outcome is a next state that has the property. -/
def nextHas (o : Host.Outcome State Fault Refusal) (p : State → Bool) : Bool :=
  match o with
  | .next t => p t
  | .fault _ => false
  | .refused _ => false

/-- A start state of the vectors: reset, the word at PC, some registers. -/
def start (w : Nat) (regs : List (RegNo × Byte)) : State :=
  regs.foldl (fun s r => s.setReg r.1 r.2) (State.reset.withFetchWord 16 w)

/-- The same with some cells of FB set. -/
def lit (s : State) (cells : List Pixel) : State := s.setFb (cells.foldl flipPixel clearedFrame)

/-- The cells of a list are the cells that are set, row 0 to 15 and column 0 to 15 looked at. -/
def corner (t : State) : List (Nat × Nat) :=
  (List.range 16).flatMap fun y => (List.range 16).filterMap fun x =>
    if pixelOf t.fb ⟨Fin.ofNat 128 x, Fin.ofNat 64 y⟩ then some (x, y) else none

/-- T0.1. -/
theorem test_00E0 : nextHas (step ((lit (start 0x00E0 []) [⟨0, 0⟩, ⟨64, 0⟩, ⟨63, 31⟩, ⟨127, 63⟩]).setDirty false))
    (fun t => t.fb == clearedFrame && t.dirty && t.pc == 0x0202#16 && t.opcode == 0x00E0#16) = true := by decide
/-- T0.6: the top entry is STACK[SP - 1], and it keeps its value. -/
theorem test_00EE : nextHas (step ((start 0x00EE []).setStack
      ((Vector.replicate 16 0x0111#16).set 15 0x0ABC#16) 16))
    (fun t => t.pc == 0x0ABE#16 && t.sp == 15 && t.stack[15] == 0x0ABC#16) = true := by decide
/-- T0.8: StackUnderflow, no tick, no beep. -/
theorem test_00EE_underflow : nextHas (step (((start 0x00EE []).setDt 5).setSt 1))
    (fun t => t.faultOut == (2, 0x0200#16, 0x00EE#16) && t.dt == 5#8 && t.st == 1#8 && !t.beep) = true := by decide
/-- T0.10: the cell outside the classic grid stays lit. -/
theorem test_00FE : nextHas (step (lit ((start 0x00FE []).setExt true) [⟨100, 50⟩]))
    (fun t => !t.ext && pixelOf t.fb ⟨100, 50⟩ && t.pc == 0x0202#16) = true := by decide
/-- T0.9. -/
theorem test_00FF : nextHas (step ((start 0x00FF []).setDirty false)) (fun t => t.ext && !t.dirty && t.pc == 0x0202#16) =
    true := by decide
/-- T0.17: an unknown word ticks; both pulses at once. -/
theorem test_unknown : nextHas (step ((start 0x00E1 []).setSt 1))
    (fun t => t.diag == some 0x00E1#16 && t.beep && t.st == 0#8 && t.pc == 0x0202#16 && t.fault == .none) = true := by decide
/-- T1.1. -/
theorem test_1NNN : nextHas (step (start 0x1ABC [])) (fun t => t.pc == 0x0ABC#16) = true := by decide
/-- T1.6: the sixteenth nested call. -/
theorem test_2NNN : nextHas (exec (.op2NNN 0x400#12) ((State.reset.setPc 0x0ABC#16).setStack State.reset.stack 15))
    (fun t => t.pc == 0x0400#16 && t.sp == 16 && t.stack[15] == 0x0ABC#16) = true := by decide
/-- T1.7: StackOverflow. -/
theorem test_2NNN_overflow : nextHas (step (((start 0x2400 []).setStack State.reset.stack 16).setDt 9))
    (fun t => t.faultOut == (1, 0x0200#16, 0x2400#16) && t.sp == 16 && t.dt == 9#8) = true := by decide
/-- T1.9 and T1.10. -/
theorem test_3XNN : nextHas (step (start 0x3A42 [(0xA, 0x42#8)])) (fun t => t.pc == 0x0204#16) = true ∧
    nextHas (step (start 0x3A42 [(0xA, 0x43#8)])) (fun t => t.pc == 0x0202#16) = true := by decide
/-- T1.12 and T1.13. -/
theorem test_4XNN : nextHas (step (start 0x4A42 [(0xA, 0x42#8)])) (fun t => t.pc == 0x0202#16) = true ∧
    nextHas (step (start 0x4A42 [(0xA, 0x43#8)])) (fun t => t.pc == 0x0204#16) = true := by decide
/-- T1.14 and T1.15. -/
theorem test_5XY0 : nextHas (step (start 0x5120 [(1, 7#8), (2, 7#8)])) (fun t => t.pc == 0x0204#16) = true ∧
    nextHas (step (start 0x5120 [(1, 7#8), (2, 8#8)])) (fun t => t.pc == 0x0202#16) = true := by decide
/-- T1.18 and T1.19. -/
theorem test_9XY0 : nextHas (step (start 0x9120 [(1, 7#8), (2, 8#8)])) (fun t => t.pc == 0x0204#16) = true ∧
    nextHas (step (start 0x9120 [(1, 7#8), (2, 7#8)])) (fun t => t.pc == 0x0202#16) = true := by decide
/-- T1.23: the fetch at 0x0FFF takes its low byte from 0x000. -/
theorem test_6XNN : nextHas (step ((State.reset.setPc 0x0FFF#16).storeAtPc 0x6A11#16))
    (fun t => t.reg 0xA == 0x11#8 && t.pc == 0x1001#16 && t.byteAt 0 == 0x11#8) = true := by decide
/-- T2.4. -/
theorem test_7XNN : nextHas (step (start 0x7301 [(3, 0xFF#8), (0xF, 0xAA#8)]))
    (fun t => t.reg 3 == 0x00#8 && t.reg 0xF == 0xAA#8) = true := by decide
/-- T3.1 to T3.4. -/
theorem test_assign_and_logic :
    nextHas (step (start 0x8120 [(1, 0x11#8), (2, 0x22#8), (0xF, 0x5A#8)])) (fun t => t.reg 1 == 0x22#8 && t.reg 0xF == 0x5A#8) ∧
    nextHas (step (start 0x8121 [(1, 0x0C#8), (2, 0x0A#8), (0xF, 0x5A#8)])) (fun t => t.reg 1 == 0x0E#8 && t.reg 0xF == 0x5A#8) ∧
    nextHas (step (start 0x8122 [(1, 0x0C#8), (2, 0x0A#8), (0xF, 0x5A#8)])) (fun t => t.reg 1 == 0x08#8 && t.reg 0xF == 0x5A#8) ∧
    nextHas (step (start 0x8123 [(1, 0x0C#8), (2, 0x0A#8), (0xF, 0x5A#8)])) (fun t => t.reg 1 == 0x06#8 && t.reg 0xF == 0x5A#8) := by
  decide
/-- T3.6: carry. T3.11: with X = F the flag wins. -/
theorem test_8XY4 : nextHas (step (start 0x8124 [(1, 0xFF#8), (2, 1#8)])) (fun t => t.reg 1 == 0#8 && t.reg 0xF == 1#8) = true ∧
    nextHas (step (start 0x8F14 [(0xF, 0xFF#8), (1, 1#8)])) (fun t => t.reg 0xF == 1#8) = true := by decide
/-- T3.15: borrow. T3.17: equal operands do not borrow. -/
theorem test_8XY5 : nextHas (step (start 0x8125 [(1, 1#8), (2, 2#8), (0xF, 1#8)])) (fun t => t.reg 1 == 0xFF#8 && t.reg 0xF == 0#8) = true ∧
    nextHas (step (start 0x8125 [(1, 0x37#8), (2, 0x37#8)])) (fun t => t.reg 1 == 0#8 && t.reg 0xF == 1#8) = true := by decide
/-- T3.26: V[2] is ignored. T3.31: X = F. -/
theorem test_8XY6 : nextHas (step (start 0x8126 [(1, 3#8), (2, 0xF0#8)])) (fun t => t.reg 1 == 1#8 && t.reg 0xF == 1#8) = true ∧
    nextHas (step (start 0x8F16 [(0xF, 2#8)])) (fun t => t.reg 0xF == 0#8) = true := by decide
/-- T3.23: borrow. T3.22: none. -/
theorem test_8XY7 : nextHas (step (start 0x8127 [(1, 2#8), (2, 1#8), (0xF, 1#8)])) (fun t => t.reg 1 == 0xFF#8 && t.reg 0xF == 0#8) = true ∧
    nextHas (step (start 0x8127 [(1, 1#8), (2, 2#8)])) (fun t => t.reg 1 == 1#8 && t.reg 0xF == 1#8) = true := by decide
/-- T3.32: V[2] is ignored. T3.33. -/
theorem test_8XYE : nextHas (step (start 0x812E [(1, 0x81#8), (2, 0x0F#8)])) (fun t => t.reg 1 == 2#8 && t.reg 0xF == 1#8) = true ∧
    nextHas (step (start 0x812E [(1, 0x40#8), (0xF, 1#8)])) (fun t => t.reg 1 == 0x80#8 && t.reg 0xF == 0#8) = true := by decide
/-- T4.2. -/
theorem test_ANNN : nextHas (step ((start 0xAFFF []).setI 0x1234#16)) (fun t => t.i == 0x0FFF#16) = true := by decide
/-- T4.6: PC exceeds 0x0FFF. -/
theorem test_BNNN : nextHas (step (start 0xBFFF [(0, 0xFF#8)])) (fun t => t.pc == 0x10FE#16) = true := by decide
/-- T4.8, and the script's entry is used up. -/
theorem test_CXNN : nextHas (step ((start 0xC30F []).setHost [.cycle true 0xA7#8] 0))
    (fun t => t.reg 3 == 0x07#8 && t.host == [] && t.draws == 0) = true := by decide
/-- T5.1: glyph 0. -/
theorem test_DXYN : nextHas (step (start 0xD015 [])) (fun t => corner t == [(0, 0), (1, 0), (2, 0), (3, 0), (0, 1), (3, 1),
      (0, 2), (3, 2), (0, 3), (3, 3), (0, 4), (1, 4), (2, 4), (3, 4)] && t.reg 0xF == 0#8 && t.dirty) = true := by decide
/-- T5.4: linear wrap; and the other reading of DRAW_WRAP. -/
theorem test_DXYN_wrap :
    cellOf .linear false 64 31 = ⟨0, 0⟩ ∧ cellOf .linear false 200 100 = ⟨8, 7⟩ ∧ cellOf .linear true 128 63 = ⟨0, 0⟩ ∧
    cellOf .perAxis false 64 31 = ⟨0, 31⟩ ∧ cellOf .perAxis false 200 100 = ⟨8, 4⟩ ∧ cellOf .perAxis true 128 63 = ⟨0, 63⟩ := by
  decide
/-- T6.5: only the low nibble of V[X] selects. T6.8. -/
theorem test_EX9E : nextHas (step ((start 0xE29E [(2, 0x1A#8)]).setKey 10 true)) (fun t => t.pc == 0x0204#16) = true ∧
    nextHas (step ((start 0xE29E [(2, 5#8)]).setKey 2 true)) (fun t => t.pc == 0x0202#16) = true := by decide
/-- T6.3 and T6.6. -/
theorem test_EXA1 : nextHas (step (start 0xE2A1 [(2, 0x0A#8)])) (fun t => t.pc == 0x0204#16) = true ∧
    nextHas (step ((start 0xE2A1 [(2, 0xF0#8)]).setKey 0 true)) (fun t => t.pc == 0x0202#16) = true := by decide
/-- T7.1. -/
theorem test_FX07 : nextHas (step ((start 0xF307 []).setDt 0x2A)) (fun t => t.reg 3 == 0x2A#8 && t.dt == 0x29#8) = true := by
  decide
/-- T7.13: waiting ticks and beeps. -/
theorem test_FX0A_waits : nextHas (step (((start 0xF50A [(5, 0x77#8)]).setDt 3).setSt 1))
    (fun t => t.pc == 0x0200#16 && t.reg 5 == 0x77#8 && t.dt == 2#8 && t.st == 0#8 && t.beep) = true := by decide
/-- T7.16, under both priorities. -/
theorem test_FX0A_priority : nextHas (step (((start 0xF50A []).setKey 3 true).setKey 9 true))
    (fun t => t.reg 5 == 9#8 && t.pc == 0x0202#16) = true ∧
    reportedKey .lowest ((((State.reset).setKey 3 true).setKey 9 true).key) = some 3 := by decide
/-- T7.4 and T7.5: the tick after the write. -/
theorem test_FX15 : nextHas (step (start 0xF315 [(3, 0x10#8)])) (fun t => t.dt == 0x0F#8) = true ∧
    nextHas (step ((start 0xF315 [(3, 0x10#8)]).setHost [.cycle false 0#8] 0)) (fun t => t.dt == 0x10#8) = true := by decide
/-- T7.9: a beep in the cycle of the FX18. T7.10: none. -/
theorem test_FX18 : nextHas (step (start 0xF318 [(3, 1#8)])) (fun t => t.beep && t.st == 0#8) = true ∧
    nextHas (step ((start 0xF318 [(3, 0#8)]).setSt 1)) (fun t => !t.beep && t.st == 0#8) = true := by decide
/-- T7.20 and T7.23. -/
theorem test_FX1E : nextHas (step ((start 0xF21E [(2, 1#8)]).setI 0x0FFE#16)) (fun t => t.i == 0x0FFF#16 && t.reg 0xF == 0#8) = true ∧
    nextHas (step ((start 0xF21E [(2, 1#8)]).setI 0xFFFF#16)) (fun t => t.i == 0x0000#16 && t.reg 0xF == 1#8) = true := by decide
/-- T7.30. -/
theorem test_FX29 : nextHas (step (start 0xF229 [(2, 0xFF#8)])) (fun t => t.i == 0x04FB#16) = true := by decide
/-- T7.32 and T7.37. -/
theorem test_FX33 : nextHas (step ((start 0xF433 [(4, 0xEA#8)]).setI 0x0300#16))
      (fun t => t.byteAt 0x300 == 2#8 && t.byteAt 0x301 == 3#8 && t.byteAt 0x302 == 4#8 && t.i == 0x0300#16) = true ∧
    nextHas (step ((start 0xF433 [(4, 0xC7#8)]).setI 0x0FFF#16))
      (fun t => t.byteAt 0xFFF == 1#8 && t.byteAt 0 == 9#8 && t.byteAt 1 == 9#8) = true := by decide
/-- T7.39 and T7.41. -/
theorem test_FX55 : nextHas (step ((start 0xF255 [(0, 0x11#8), (1, 0x22#8), (2, 0x33#8), (3, 0x44#8)]).setI 0x0300#16))
      (fun t => t.byteAt 0x300 == 0x11#8 && t.byteAt 0x302 == 0x33#8 && t.byteAt 0x303 == 0x00#8 && t.i == 0x0303#16) = true ∧
    nextHas (step ((start 0xF155 [(0, 0x11#8), (1, 0x22#8)]).setI 0xFFFF#16))
      (fun t => t.byteAt 0xFFF == 0x11#8 && t.byteAt 0 == 0x22#8 && t.i == 0x0001#16) = true := by decide
/-- T7.45: X = F loads VF from memory. T7.42: V[3] is not loaded. -/
theorem test_FX65 : nextHas (step ((start 0xFF65 [(0xF, 1#8)]).setI 0x004B#16))
      (fun t => t.reg 0 == 0xF0#8 && t.reg 4 == 0x80#8 && t.reg 0xF == 0#8 && t.i == 0x005B#16) = true ∧
    nextHas (step ((start 0xF265 [(3, 0x99#8)]).setI 0x004B#16)) (fun t => t.reg 2 == 0xF0#8 && t.reg 3 == 0x99#8) = true := by
  decide
/-- S8: a halted cycle changes nothing, the timers included. -/
theorem test_halted : nextHas (step (((start 0x60FF []).setFault .stackUnderflow).setDt 4))
    (fun t => t.pc == 0x0200#16 && t.opcode == 0x0000#16 && t.reg 0 == 0#8 && t.dt == 4#8 && t.fault == .stackUnderflow) =
    true := by decide

/-! ### The host -/

/-- RST.1: memory after reset. -/
theorem test_reset_memory : State.reset.byteAt 0x000 = 0xF0#8 ∧ State.reset.byteAt 0x005 = 0x20#8 ∧
    State.reset.byteAt 0x04F = 0x80#8 ∧ State.reset.byteAt 0x050 = 0x00#8 ∧ State.reset.byteAt 0xFFF = 0x00#8 := by decide
/-- RST.2: reset leaves the halted state. -/
theorem test_host_reset : nextHas (step (((State.reset.setFault .stackUnderflow).setDt 5).setHost [.move .reset] 0))
    (fun t => t == State.reset) = true := by decide
/-- S6: the image 12 00. -/
theorem test_load_program : nextHas (step ((State.reset.setReg 3 0x55#8).setHost [.move (.loadProgram [0x12#8, 0x00#8])] 0))
    (fun t => t.byteAt 0x200 == 0x12#8 && t.byteAt 0x201 == 0x00#8 && t.reg 3 == 0#8 && t.pc == 0x0200#16) = true := by decide
/-- S6: 3584 bytes fit, 3585 do not. -/
theorem test_load_capacity : decide (3584 ≤ maxRom) = true ∧ decide (3585 ≤ maxRom) = false := by decide
/-- R227 and R229. -/
theorem test_key_and_query : nextHas (step (State.reset.setHost [.move (.keyWr 7 true)] 0)) (fun t => t.key[7] && !t.key[8]) = true ∧
    nextHas (step (State.reset.setHost [.move .frameQuery] 0)) (fun t => !t.dirty) = true := by decide
/-- The first cycle after reset with nothing placed meets the word 0x0000 (T0.13). -/
theorem test_first_cycle : nextHas (step State.reset) (fun t => t.diag == some 0x0000#16 && t.pc == 0x0202#16) = true := by decide

/-! ### The assembler -/

/-- R85. -/
theorem test_asm_text : asmText (.op8XY4 0xA 2) = "ADD VA, V2" ∧ asmText (.op2NNN 0x20C#12) = "CALL 0x20C" ∧
    asmText (.op8XY6 4 0) = "SHR V4" ∧ asmText (.opFX65 2) = "LD V2, [I]" := by decide
/-- P1: the program of six lines and its end, with a label, gives the bytes of its image. -/
theorem test_assemble : assemble [.instr (.op6XNN 0 0x00#8), .instr (.op6XNN 1 0x05#8), .label "loop", .instr (.op8XY4 0 1),
      .instr (.op7XNN 1 0xFF#8), .instr (.op3XNN 1 0x00#8), .withLabel .jp "loop", .instr (.op1NNN 0x20C#12)] =
    some [0x60#8, 0x00#8, 0x61#8, 0x05#8, 0x80#8, 0x14#8, 0x71#8, 0xFF#8, 0x31#8, 0x00#8, 0x12#8, 0x04#8, 0x12#8, 0x0C#8] := by
  decide

/-! ### Witnesses: the hypotheses of the obligations can be met, clause by clause -/

/-- DecodedWordEncodesBack: a word with an ignored bit set. -/
theorem witness_DecodedWordEncodesBack : decode 0x512F#16 = .ok (.op5XY0 1 2) ∧ 0x512F#16 &&& ignoredBits (.op5XY0 1 2) = 0x000F#16 := by
  decide

/-- DecodingIsTotalAndUnambiguous: a row and a word it selects. -/
theorem witness_DecodingIsTotalAndUnambiguous :
    ({ mnemonic := "6XNN", bits := 0x6000#16, mask := 0xF000#16 } : OpcodeRow) ∈ opcodeTable ∧
    ({ mnemonic := "6XNN", bits := 0x6000#16, mask := 0xF000#16 } : OpcodeRow).selects 0x6A42#16 = true := by decide

/-- A state that is ready, with any word at PC. -/
theorem start_ready (w : Nat) : (start w []).Ready := ⟨rfl, rfl, rfl⟩

/-- StepRunsDecodedInstruction, with and without a tick, and with a fault. -/
theorem witness_StepRunsDecodedInstruction :
    (start 0x6A42 []).Ready ∧ decode (start 0x6A42 []).fetchWord = .ok (.op6XNN 0xA 0x42#8) ∧
    decode (start 0x00EE []).fetchWord = .ok .op00EE := ⟨start_ready _, by decide, by decide⟩

/-- UnknownOpcodeIsDiagnosedNoOp. -/
theorem witness_UnknownOpcodeIsDiagnosedNoOp :
    State.reset.Ready ∧ decode State.reset.fetchWord = .error (.unknownOpcode 0x0000#16) := ⟨⟨rfl, rfl, rfl⟩, by decide⟩

/-- HaltedCoreChangesNothing: a halted state whose core moves next, and the two moves that leave it. -/
theorem witness_HaltedCoreChangesNothing :
    ((State.reset.setFault .stackOverflow).fault ≠ .none ∧ (State.reset.setFault .stackOverflow).coreNext = true ∧
      (State.reset.setFault .stackOverflow).loadFailed = false) ∧
    (∃ t, step ((State.reset.setFault .stackOverflow).setHost [.move .reset] 0) = .next t ∧ t.fault ≠ .stackOverflow) ∧
    (∃ t, step ((State.reset.setFault .stackOverflow).setHost [.move (.loadProgram [0x12#8])] 0) = .next t ∧
      t.fault ≠ .stackOverflow) :=
  ⟨by decide, ⟨_, rfl, by decide⟩, ⟨_, rfl, by decide⟩⟩

/-- EveryStepCompletes: a cycle after a failed load, a cycle without one, and a move after a failed load. -/
theorem witness_EveryStepCompletes :
    ((State.reset.setLoadFailed true).coreNext = true ∧ (State.reset.setLoadFailed true).loadFailed = true) ∧
    ¬ (State.reset.coreNext = true ∧ State.reset.loadFailed = true) ∧
    ¬ (((State.reset.setLoadFailed true).setHost [.move .reset] 0).coreNext = true ∧
      ((State.reset.setLoadFailed true).setHost [.move .reset] 0).loadFailed = true) := by decide

/-- FaultEntryIsPrecise: both faults. -/
theorem witness_FaultEntryIsPrecise :
    (((start 0x2400 []).setStack State.reset.stack 16).Ready ∧
      decode ((start 0x2400 []).setStack State.reset.stack 16).fetchWord = .ok (.op2NNN 0x400#12) ∧
      ((start 0x2400 []).setStack State.reset.stack 16).sp.val = 16) ∧
    ((start 0x00EE []).Ready ∧ decode (start 0x00EE []).fetchWord = .ok .op00EE ∧ (start 0x00EE []).sp.val = 0) :=
  ⟨⟨⟨rfl, rfl, rfl⟩, by decide, by decide⟩, ⟨rfl, rfl, rfl⟩, by decide, by decide⟩

/-- OnlyCallAndReturnFault: each side of each equivalence. -/
theorem witness_OnlyCallAndReturnFault :
    State.reset.fault = .none ∧
    (∃ t, exec (.op2NNN 0x400#12) (State.reset.setStack State.reset.stack 16) = .next t ∧ t.fault = .stackOverflow) ∧
    (∃ t, exec (.op2NNN 0x400#12) (State.reset.setStack State.reset.stack 15) = .next t ∧ t.fault = .none) ∧
    (∃ t, exec .op00EE State.reset = .next t ∧ t.fault = .stackUnderflow) ∧
    (∃ t, exec .op00EE (State.reset.setStack State.reset.stack 1) = .next t ∧ t.fault = .none) :=
  ⟨rfl, ⟨_, rfl, by decide⟩, ⟨_, rfl, by decide⟩, ⟨_, rfl, by decide⟩, ⟨_, rfl, by decide⟩⟩

/-- HostResetFromAnyState, LoadProgramCopiesImage, KeyWriteSetsOneKey, FrameQueryClearsDirty: the script begins with the move. -/
theorem witness_host_moves (m : HostMove) : (State.reset.setHost [.move m] 0).host = .move m :: [] := rfl

/-- LoadProgramCopiesImage: the longest image that fits and the shortest that does not. -/
theorem witness_LoadProgramCopiesImage :
    (List.replicate 3584 0xAA#8).length ≤ 3584 ∧ 3584 < (List.replicate 3585 0xAA#8).length ∧
    ((State.reset.setLoadFailed true).setHost [] 0).coreNext = true := by
  simp only [List.length_replicate]
  decide

/-- ReturnPopsOrUnderflows at depths 1, 16 and 0; CallPushesOrOverflows and ReturnResumesAfterCall at 0, 15 and 16. -/
theorem witness_stack_depths :
    (State.reset.setStack State.reset.stack 1).sp.val ≠ 0 ∧ (State.reset.setStack State.reset.stack 16).sp.val ≠ 0 ∧
    State.reset.sp.val = 0 ∧ State.reset.sp.val < 16 ∧ (State.reset.setStack State.reset.stack 15).sp.val < 16 ∧
    (State.reset.setStack State.reset.stack 16).sp.val = 16 := by decide

/-- AddSetsCarry, SubtractSetsNotBorrow, ShiftsMoveBitIntoFlag: a destination that is not VF. -/
theorem witness_destination_not_VF : (0 : RegNo) ≠ 0xF ∧ (0xE : RegNo) ≠ 0xF := by decide

/-- RandomByteIsMasked: an input in the script, none in the script, a 0 bit of NN. -/
theorem witness_RandomByteIsMasked :
    (State.reset.setHost [.cycle true 0xA7#8] 0).host = .cycle true 0xA7#8 :: [] ∧ State.reset.host = [] ∧
    (0x0F#8).getLsbD 7 = false := by decide

/-- OnlyRandomReadsInputs. -/
theorem witness_OnlyRandomReadsInputs :
    (∀ x nn, Instr.op6XNN 3 0x42#8 ≠ .opCXNN x nn) ∧ ∃ t, exec (.op6XNN 3 0x42#8) State.reset = .next t :=
  ⟨fun _ _ h => (by cases h), ⟨_, rfl⟩⟩

/-- Glyph 0 drawn at the origin, over blank cells. -/
theorem glyph0_hits : spriteHits State.reset 0 1 5 ⟨0, 0⟩ :=
  ⟨0, by decide, 0, by decide, by unfold spriteBit; decide, by decide, by decide⟩

/-- Column 4 of glyph 0 is not set, so no bit of it lands on column 4. -/
theorem glyph0_misses : ¬ spriteHits State.reset 0 1 5 ⟨127, 63⟩ := by
  rintro ⟨r, hr, c, hc, -, hx, -⟩
  have h1 : (127 : Nat) = (c + r * 64) % 2048 % 64 := by simpa [State.reset, State.reg, gridW, gridH, regVF] using hx
  omega

/-- DrawXorsSprite: a cell hit, a cell missed, a collision and none. -/
theorem witness_DrawXorsSprite :
    spriteHits State.reset 0 1 5 ⟨0, 0⟩ ∧ ¬ spriteHits State.reset 0 1 5 ⟨127, 63⟩ ∧
    (∃ p, spriteHits (lit State.reset [⟨0, 0⟩]) 0 1 5 p ∧ pixelOf (lit State.reset [⟨0, 0⟩]).fb p = true) ∧
    ¬ ∃ p, spriteHits State.reset 0 1 5 p ∧ pixelOf State.reset.fb p = true :=
  ⟨glyph0_hits, glyph0_misses, ⟨⟨0, 0⟩, ⟨0, by decide, 0, by decide, by unfold spriteBit; decide, by decide, by decide⟩, by decide⟩, by
    rintro ⟨p, -, h⟩
    rw [show pixelOf State.reset.fb p = false from pixelOf_clearedFrame p] at h
    cases h⟩

/-- DrawTwiceErases. -/
theorem witness_DrawTwiceErases :
    (0 : RegNo) ≠ 0xF ∧ (1 : RegNo) ≠ 0xF ∧ (∃ t, exec (.opDXYN 0 1 5) State.reset = .next t) ∧
    (∃ r < 5, ∃ c < 8, spriteBit State.reset r c) ∧ ∀ p, spriteHits State.reset 0 1 5 p → pixelOf State.reset.fb p = false :=
  ⟨by decide, by decide, ⟨_, rfl⟩, ⟨0, by decide, 0, by decide, by unfold spriteBit; decide⟩, fun p _ => pixelOf_clearedFrame p⟩

/-- DrawStaysInActiveGrid, FramebufferWriters: a cell that DXYN changes, at the last cell of the classic grid. -/
theorem witness_DrawStaysInActiveGrid :
    ∃ t, exec (.opDXYN 0 1 1) ((State.reset.setReg 0 63#8).setReg 1 31#8) = .next t ∧
      pixelOf t.fb ⟨63, 31⟩ ≠ pixelOf ((State.reset.setReg 0 63#8).setReg 1 31#8).fb ⟨63, 31⟩ := ⟨_, rfl, by decide⟩

/-- KeyWaitReportsPressedKey: no key down; two keys down, under each priority. -/
theorem witness_KeyWaitReportsPressedKey :
    (∀ k : KeyNo, State.reset.key[k] = false) ∧ (∃ k : KeyNo, (State.reset.setKey 15 true).key[k] = true) ∧
    State.reset.cfg.keyPriority = .highest ∧
    (∃ s : State, s.cfg.keyPriority = .lowest ∧ ∃ k : KeyNo, s.key[k] = true) :=
  ⟨by decide, ⟨15, by decide⟩, rfl,
    ⟨{ State.reset.setKey 0 true with cfg := { defaultConfig with keyPriority := .lowest } }, rfl, 0, by decide⟩⟩

/-- The state FX55 with X = F leaves from reset. -/
def stored : State :=
  ((State.reset.memWriteList 0#16 0 (State.reset.v.toList.take 16)).setI (0#16 + 16#16)).fallThrough

/-- StoreThenLoadRestores: other registers, the same memory, I reloaded. -/
theorem witness_StoreThenLoadRestores :
    exec (.opFX55 0xF) State.reset = .next stored ∧ ((stored.setReg 0 0x55#8).setI 0#16).mem = stored.mem ∧
    ((stored.setReg 0 0x55#8).setI 0#16).cfg = stored.cfg ∧ ((stored.setReg 0 0x55#8).setI 0#16).i = State.reset.i ∧
    ((stored.setReg 0 0x55#8).setI 0#16).reg 0 ≠ State.reset.reg 0 :=
  ⟨rfl, by simp only [State.setI_mem, State.setReg_mem], by simp only [State.setI_cfg, State.setReg_cfg],
    by simp only [State.setI_i, State.reset], by simp only [State.reg_setI, State.reg_setReg]; decide⟩

/-- CycleTicksAfterTheInstruction, BeepExactlyWhenTickLeavesOne: a cycle in which a beep is due. -/
theorem witness_cycle_ticks :
    (start 0xF318 [(3, 1#8)]).Ready ∧ (∃ t, step (start 0xF318 [(3, 1#8)]) = .next t) ∧
    (start 0xF318 [(3, 1#8)]).tickIn = true ∧ (start 0xF318 [(3, 1#8)]).stBeforeTick = 1#8 :=
  ⟨⟨rfl, rfl, rfl⟩, ⟨_, rfl⟩, rfl, by decide⟩

/-- MemoryChangesOnlyAtStores: an address outside the stored bytes, at each end of them. -/
theorem witness_MemoryChangesOnlyAtStores :
    (∃ t, exec (.opFX33 0) (State.reset.setI 0x0FFE#16) = .next t) ∧
    storeAddrs (.opFX33 0) (State.reset.setI 0x0FFE#16) = [0xFFE, 0xFFF, 0x000] ∧
    0xFFD ∉ storeAddrs (.opFX33 0) (State.reset.setI 0x0FFE#16) ∧ 0x001 ∉ storeAddrs (.opFX33 0) (State.reset.setI 0x0FFE#16) :=
  ⟨⟨_, rfl⟩, by decide⟩

/-- PcOutcomes: each clause with a next state at the values where it turns: the stack depths of 2NNN and 00EE, the two sides of
every skip, FX0A with and without a key, a sum of BNNN above 12 bits, a fall-through, an unknown word. -/
theorem witness_PcOutcomes :
    (∃ t, exec (.op1NNN 0xFFF#12) State.reset = .next t ∧ t.pc = 0x0FFF#16) ∧
    (∃ t, exec (.op2NNN 0x345#12) (State.reset.setStack State.reset.stack 15) = .next t ∧ t.pc = 0x0345#16) ∧
    (∃ t, exec (.op2NNN 0x345#12) (State.reset.setStack State.reset.stack 16) = .next t ∧ t.pc = 0x0200#16) ∧
    (∃ t, exec (.opBNNN 0xFFF#12) (State.reset.setReg 0 0xFF#8) = .next t ∧ t.pc = 0x10FE#16) ∧
    (∃ t, exec .op00EE (State.reset.setStack State.reset.stack 1) = .next t ∧ t.pc = 0x0002#16) ∧
    (∃ t, exec .op00EE State.reset = .next t ∧ t.pc = 0x0200#16) ∧
    (∃ t, exec (.op3XNN 1 0#8) State.reset = .next t ∧ t.pc = 0x0204#16) ∧
    (∃ t, exec (.op3XNN 1 1#8) State.reset = .next t ∧ t.pc = 0x0202#16) ∧
    (∃ t, exec (.op4XNN 1 0#8) State.reset = .next t ∧ t.pc = 0x0202#16) ∧
    (∃ t, exec (.op4XNN 1 1#8) State.reset = .next t ∧ t.pc = 0x0204#16) ∧
    (∃ t, exec (.op5XY0 1 2) State.reset = .next t ∧ t.pc = 0x0204#16) ∧
    (∃ t, exec (.op5XY0 1 2) (State.reset.setReg 1 1#8) = .next t ∧ t.pc = 0x0202#16) ∧
    (∃ t, exec (.op9XY0 1 2) State.reset = .next t ∧ t.pc = 0x0202#16) ∧
    (∃ t, exec (.op9XY0 1 2) (State.reset.setReg 1 1#8) = .next t ∧ t.pc = 0x0204#16) ∧
    (∃ t, exec (.op00E0) (State.reset.setPc 0xFFFF#16) = .next t ∧ t.pc = 0x0001#16) ∧
    (execUnknown 0x0000#16 State.reset).pc = 0x0202#16 :=
  ⟨⟨_, rfl, by decide⟩, ⟨_, rfl, by decide⟩, ⟨_, rfl, by decide⟩, ⟨_, rfl, by decide⟩, ⟨_, rfl, by decide⟩, ⟨_, rfl, by decide⟩,
    ⟨_, rfl, by decide⟩, ⟨_, rfl, by decide⟩, ⟨_, rfl, by decide⟩, ⟨_, rfl, by decide⟩, ⟨_, rfl, by decide⟩, ⟨_, rfl, by decide⟩,
    ⟨_, rfl, by decide⟩, ⟨_, rfl, by decide⟩, ⟨_, rfl, by decide⟩, by decide⟩

/-- PcOutcomes: the clauses on keys, with V[X] = 0x1F, which selects key 0xF, and key 0xF up or down. -/
theorem witness_PcOutcomes_keys :
    (∃ t, exec (.opEX9E 1) (State.reset.setReg 1 0x1F#8) = .next t ∧ t.pc = 0x0202#16) ∧
    (∃ t, exec (.opEX9E 1) ((State.reset.setReg 1 0x1F#8).setKey 0xF true) = .next t ∧ t.pc = 0x0204#16) ∧
    (∃ t, exec (.opEXA1 1) (State.reset.setReg 1 0x1F#8) = .next t ∧ t.pc = 0x0204#16) ∧
    (∃ t, exec (.opEXA1 1) ((State.reset.setReg 1 0x1F#8).setKey 0xF true) = .next t ∧ t.pc = 0x0202#16) ∧
    (∃ t, exec (.opFX0A 1) State.reset = .next t ∧ t.pc = 0x0200#16) ∧
    (∃ t, exec (.opFX0A 1) (State.reset.setKey 0xF true) = .next t ∧ t.pc = 0x0202#16) :=
  ⟨⟨_, rfl, by decide⟩, ⟨_, rfl, by decide⟩, ⟨_, rfl, by decide⟩, ⟨_, rfl, by decide⟩, ⟨_, rfl, by decide⟩, ⟨_, rfl, by decide⟩⟩

/-- RegisterWriters. -/
theorem witness_RegisterWriters : ∃ t, exec (.op6XNN 0xF 0x42#8) State.reset = .next t ∧ t.reg 0xF ≠ State.reset.reg 0xF :=
  ⟨_, rfl, by decide⟩

/-- ControlStateWriters: each part can change. -/
theorem witness_ControlStateWriters :
    (∃ t, exec (.opANNN 0xFFF#12) State.reset = .next t ∧ t.i ≠ State.reset.i) ∧
    (∃ t, exec (.op2NNN 0x300#12) State.reset = .next t ∧ t.sp ≠ State.reset.sp ∧ t.stack ≠ State.reset.stack) ∧
    (∃ t, exec (.opFX15 0) (State.reset.setReg 0 1#8) = .next t ∧ t.dt ≠ State.reset.dt) ∧
    (∃ t, exec (.opFX18 0) (State.reset.setReg 0 1#8) = .next t ∧ t.st ≠ State.reset.st) ∧
    (∃ t, exec .op00FF State.reset = .next t ∧ t.ext ≠ State.reset.ext) ∧
    (∃ t, exec .op00E0 (State.reset.setDirty false) = .next t ∧ t.dirty ≠ (State.reset.setDirty false).dirty) :=
  ⟨⟨_, rfl, by decide⟩, ⟨_, rfl, by decide, by decide⟩, ⟨_, rfl, by decide⟩, ⟨_, rfl, by decide⟩, ⟨_, rfl, by decide⟩,
    ⟨_, rfl, by decide⟩⟩

/-- CanonicalMemoryIsItsReads: the same writes in two orders. -/
theorem witness_CanonicalMemoryIsItsReads :
    Memory.wf defaultFont (Memory.write defaultFont (Memory.write defaultFont [] 0xFFF 1#8) 0 2#8) = true ∧
    Memory.write defaultFont (Memory.write defaultFont [] 0xFFF 1#8) 0 2#8 =
      Memory.write defaultFont (Memory.write defaultFont [] 0 2#8) 0xFFF 1#8 := by decide

/-- StepKeepsInvariant: a state halted by a 00EE on an empty stack. -/
theorem witness_StepKeepsInvariant :
    (((start 0x00EE []).setOpcode 0x00EE#16).setFault .stackUnderflow).Inv ∧
    ∃ t, step (((start 0x00EE []).setOpcode 0x00EE#16).setFault .stackUnderflow) = .next t := by
  refine ⟨⟨by decide, fun _ => ⟨rfl, rfl⟩, fun _ => by decide, fun h => ?_, fun _ => ⟨rfl, by decide⟩, fun w h => ?_,
    fun h => ?_⟩, _, rfl⟩ <;> cases h

/-- ReservedRangeSurvivesSafeRun: a run of one step from a state with FX55 at PC and I in program space. -/
theorem witness_ReservedRangeSurvivesSafeRun :
    (∀ a < 0x200, ((start 0xF155 []).setI 0x0300#16).byteAt a =
      Memory.background ((start 0xF155 []).setI 0x0300#16).cfg.font a) ∧ SafeRun 1 ((start 0xF155 []).setI 0x0300#16) := by
  refine ⟨fun a ha => ?_, ⟨rfl, rfl, rfl⟩, ?_, _, rfl, rfl, rfl, rfl⟩
  · have h : (start 0xF155 []).mem = [(0x200, 0xF1#8), (0x201, 0x55#8)] := by decide
    have h1 : ¬ 0x200 = a := by omega
    have h2 : ¬ 0x201 = a := by omega
    simp [State.byteAt, Memory.read, h, Memory.lookup, h1, h2]
  · intro i hi
    have h : decode ((start 0xF155 []).setI 0x0300#16).fetchWord = .ok (.opFX55 1) := by decide
    rw [h] at hi
    cases hi
    decide

/-- SelfJumpIsTheEnd: the word 1200 at 0x200. -/
theorem witness_SelfJumpIsTheEnd : (start 0x1200 []).Ready ∧ (start 0x1200 []).AtSelfJump :=
  ⟨start_ready _, 0x200#12, by decide, by decide⟩

/-- StoreIsSeenByNextFetch: FX55 at 0x200 with I at the next instruction (T7.46). -/
theorem witness_StoreIsSeenByNextFetch :
    ∃ t, exec (.opFX55 1) (State.reset.setI 0x0202#16) = .next t ∧ 1 ≤ (1 : RegNo).val ∧
      (State.reset.setI 0x0202#16).i.toNat = ((State.reset.setI 0x0202#16).pc.toNat + 2) % 65536 := ⟨_, rfl, by decide, by decide⟩

end Sys2Proof.Tests
end

/-! SUPPORT. Family 10_state: the state reset leaves (spec/10_state.md R20, R40; spec/70_reset_and_hazards.md R240), and how
each instruction, and an unknown word, leaves PC (spec/10_state.md R24). -/

namespace Sys2Proof.Machine

/-! ### The state reset leaves -/

/-- The background below address 80 is FONT (R40). -/
theorem Memory.background_of_lt (font : Vector Byte 80) {a : Nat} (h : a < 80) : Memory.background font a = font[a] :=
  dif_pos h

/-- The background from address 80 up is zero (R38). -/
theorem Memory.background_of_le (font : Vector Byte 80) {a : Nat} (h : 80 ≤ a) : Memory.background font a = 0x00#8 :=
  dif_neg (Nat.not_lt.mpr h)

/-- A memory that lists nothing reads as its background at every address. -/
theorem State.byteAt_of_mem_nil {s : State} (h : s.mem = []) (a : Nat) : s.byteAt a = Memory.background s.cfg.font a := by
  rw [State.byteAt, h]
  rfl

/-- A memory that lists nothing is MEM as reset leaves it, whatever FONT is (R240). -/
theorem State.resetMem_of_mem_nil {s : State} (h : s.mem = []) : s.ResetMem := by
  constructor
  · intro a ha
    rw [State.byteAt_of_mem_nil h, Memory.background_of_lt _ ha]
  · intro a ha _
    rw [State.byteAt_of_mem_nil h, Memory.background_of_le _ ha]

/-- The elements held in vectors (V, STACK, KEY, FB) are zero at each index; every other one is its literal in
`State.reset` (R20, R240). -/
theorem State.reset_resetButMem : State.reset.ResetButMem where
  v r := Vector.getElem_replicate r.isLt
  pc := rfl
  i := rfl
  sp := rfl
  stack j := Vector.getElem_replicate j.isLt
  dt := rfl
  st := rfl
  ext := rfl
  dirty := rfl
  opcode := rfl
  fault := rfl
  key k := Vector.getElem_replicate k.isLt
  fb := pixelOf_clearedFrame
  outputs := ⟨rfl, rfl⟩
  loaded := rfl

/-- Settles O13: every element of R20 but MEM is read off `State.reset`, and its MEM lists nothing. -/
theorem resetStateValues : Obligations.ResetStateValues :=
  ⟨State.reset_resetButMem, State.resetMem_of_mem_nil rfl⟩

/-! ### How an instruction leaves PC -/

section

variable {s t u : State}

/-- An instruction that answers a fall-through from a state with PC still in place adds 2 (R13, R24). -/
theorem pc_of_next_fallThrough (h : (.next u.fallThrough : Host.Outcome State Fault Refusal) = .next t)
    (hu : u.pc = s.pc) : t.pc = s.pc + 2#16 := by
  cases h
  rw [State.fallThrough_eq, State.setPc_pc, hu]

/-- A skip whose test says `P` adds 4 when `P` holds and 2 when it does not (R24). -/
theorem State.skipIf_pc_of_iff (s : State) {c : Bool} {P : Prop} [Decidable P] (h : c = true ↔ P) :
    (s.skipIf c).pc = s.pc + if P then 4#16 else 2#16 := by
  rw [State.skipIf_eq, State.setPc_pc]
  simp only [h]

/-- A skip whose test says `¬ P` adds 2 when `P` holds and 4 when it does not (R24). -/
theorem State.skipIf_pc_of_iff_not (s : State) {c : Bool} {P : Prop} [Decidable P] (h : c = true ↔ ¬ P) :
    (s.skipIf c).pc = s.pc + if P then 2#16 else 4#16 := by
  rw [State.skipIf_pc_of_iff s h, ite_not]

/-- 00EE: PC stays at depth 0, else it is the popped address plus 2 (R101, R202). -/
theorem exec00EE_pc (h : exec00EE s = .next t) :
    (s.sp.val = 0 → t.pc = s.pc) ∧ ∀ _h : s.sp.val ≠ 0, t.pc = s.stack[s.sp.val - 1]'(by omega) + 2#16 := by
  obtain ⟨hsp, he⟩ | ⟨hsp, he⟩ := exec00EE_cases s
  · cases he.symm.trans h
    exact ⟨fun _ => rfl, fun hne => absurd (congrArg Fin.val hsp) hne⟩
  · cases he.symm.trans h
    exact ⟨fun h0 => absurd h0 hsp, fun _ => rfl⟩

/-- 2NNN: PC stays at depth 16, else it is NNN (R111, R201). -/
theorem exec2NNN_pc {nnn : Addr} (h : exec2NNN nnn s = .next t) :
    t.pc = if s.sp.val = 16 then s.pc else zextAddr nnn := by
  obtain ⟨hsp, he⟩ | ⟨hsp, he⟩ := exec2NNN_cases s nnn
  · cases he.symm.trans h
    exact (if_pos (congrArg Fin.val hsp)).symm
  · cases he.symm.trans h
    exact (if_neg hsp.ne).symm

/-- FX0A: PC stays while no key is down, else 2 is added (R182). -/
theorem execFX0A_pc {x : RegNo} (h : execFX0A x s = .next t) :
    t.pc = if (∀ k : KeyNo, s.key[k] = false) then s.pc else s.pc + 2#16 := by
  obtain ⟨hup, he⟩ | ⟨k, -, hk, he⟩ := execFX0A_cases s x
  · cases he.symm.trans h
    exact (if_pos hup).symm
  · cases he.symm.trans h
    have hdown : ¬ ∀ k : KeyNo, s.key[k] = false := fun hup => by simp [hup k] at hk
    exact (if_neg hdown).symm

end

/-- Settles O53: the jumps, the call and the return, the skips and the key wait each have an outcome of their own; every other
instruction, and an unknown word, falls through (R24). -/
theorem pcOutcomes : Obligations.PcOutcomes := by
  refine ⟨fun i s t h => ?_, fun w s => ?_⟩
  · cases i with
    | op1NNN nnn => cases h; rfl
    | op2NNN nnn => exact exec2NNN_pc h
    | opBNNN nnn => cases h; rfl
    | op00EE => exact exec00EE_pc h
    | op3XNN x nn => cases h; exact s.skipIf_pc_of_iff beq_iff_eq
    | op4XNN x nn => cases h; exact s.skipIf_pc_of_iff_not bne_iff_ne
    | op5XY0 x y => cases h; exact s.skipIf_pc_of_iff beq_iff_eq
    | op9XY0 x y => cases h; exact s.skipIf_pc_of_iff_not bne_iff_ne
    | opEX9E x => cases h; exact s.skipIf_pc_of_iff Iff.rfl
    | opEXA1 x => cases h; exact s.skipIf_pc_of_iff_not (by simp)
    | opFX0A x => exact execFX0A_pc h
    | opFX33 x => exact pc_of_next_fallThrough h (State.memWriteList_pc ..)
    | opFX55 x => exact pc_of_next_fallThrough h (State.memWriteList_pc ..)
    | opFX65 x => exact pc_of_next_fallThrough h (State.setRegsFrom_pc ..)
    | _ => exact pc_of_next_fallThrough h rfl
  · rw [execUnknown_eq, State.setPc_pc]

end Sys2Proof.Machine

/-! SUPPORT. Family 20_memory: a read of memory by its reduced address, and the fetched word by its two bytes
(spec/20_memory.md R50, R54). -/

namespace Sys2Proof.Machine

/-- MemRead reduces the sum of base and offset modulo 4096 (R54). -/
theorem State.memRead_eq_byteAt (s : State) (base : Word) (off : Nat) :
    s.memRead base off = s.byteAt ((base.toNat + off) % 4096) := rfl

/-- The word at PC has the byte read at offset 0 as its high byte and the byte read at offset 1 as its low byte (R50). -/
theorem State.fetchWord_toNat (s : State) :
    s.fetchWord.toNat = 256 * (s.memRead s.pc 0).toNat + (s.memRead s.pc 1).toNat := by
  rw [State.fetchWord, composeWord_toNat, Nat.mul_comm]

/-- Settles O6: the two reads of the fetch, each at its own address reduced modulo 4096. -/
theorem fetchIsBigEndian : Obligations.FetchIsBigEndian := by
  intro s
  rw [State.fetchWord_toNat, State.memRead_eq_byteAt, State.memRead_eq_byteAt, Nat.add_zero]

end Sys2Proof.Machine

/-! SUPPORT. Family 41_jump_call_skip: what a write of PC leaves alone, where a skip lands, and the jump and the immediate skips
(spec/41_jump_call_skip.md R110, R112, R113). -/

namespace Sys2Proof.Machine

/-- A write of PC changes no other part. -/
theorem State.onlyChanges_setPc (s : State) (w : Word) : OnlyChanges (fun p => p = .pc) s (s.setPc w) := by
  intro p hp
  cases p with
  | pc => exact absurd rfl hp
  | _ => rfl

/-- A skip, taken or not, changes no part but PC. -/
theorem State.onlyChanges_skipIf (s : State) (c : Bool) : OnlyChanges (fun p => p = .pc) s (s.skipIf c) :=
  s.onlyChanges_setPc _

/-- A skip whose test says `P` lands 4 on when `P` holds and 2 on when it does not, modulo 65536 (R24). -/
theorem State.skipIf_pc_toNat_of_iff (s : State) {c : Bool} {P : Prop} [Decidable P] (h : c = true ↔ P) :
    (s.skipIf c).pc.toNat = (s.pc.toNat + if P then 4 else 2) % 65536 := by
  rw [State.skipIf, State.advance_pc_toNat]
  simp only [h]

/-- A skip whose test says `¬ P` lands 2 on when `P` holds and 4 on when it does not, modulo 65536 (R24). -/
theorem State.skipIf_pc_toNat_of_iff_not (s : State) {c : Bool} {P : Prop} [Decidable P] (h : c = true ↔ ¬ P) :
    (s.skipIf c).pc.toNat = (s.pc.toNat + if P then 2 else 4) % 65536 := by
  rw [s.skipIf_pc_toNat_of_iff h, ite_not]

/-- Settles O21: the jump is one write of PC, and zero extension keeps the number NNN. -/
theorem jumpSetsPc : Obligations.JumpSetsPc :=
  ⟨decodesAs_op1NNN, fun s nnn => ⟨s.setPc (zextAddr nnn), rfl, zextAddr_toNat nnn, s.onlyChanges_setPc _⟩⟩

/-- Settles O24: 3XNN skips on the test `V[X] == NN` and 4XNN on `V[X] != NN`, each read as a test of numbers. -/
theorem immediateSkips : Obligations.ImmediateSkips := by
  refine ⟨decodesAs_op3XNN, decodesAs_op4XNN, fun s x nn => ?_⟩
  have heq : (s.reg x == nn) = true ↔ (s.reg x).toNat = nn.toNat := beq_iff_eq.trans BitVec.toNat_inj.symm
  have hne : (s.reg x != nn) = true ↔ ¬ (s.reg x).toNat = nn.toNat := bne_iff_ne.trans (not_congr BitVec.toNat_inj.symm)
  exact ⟨⟨s.skipIf _, rfl, s.skipIf_pc_toNat_of_iff heq, s.onlyChanges_skipIf _⟩,
    ⟨s.skipIf _, rfl, s.skipIf_pc_toNat_of_iff_not hne, s.onlyChanges_skipIf _⟩⟩

end Sys2Proof.Machine

/-! SUPPORT. Family 42_immediate_6_7: the frames of a register write and of the fall-through after an operation, and the two
immediate operations (spec/42_immediate_6_7.md R120, R121). -/

namespace Sys2Proof.Machine

/-- A write of V[X] changes no other part, VF included unless X = F (R22, R26). -/
theorem State.onlyChanges_setReg (s : State) (x : RegNo) (b : Byte) : OnlyChanges (fun p => p = .reg x) s (s.setReg x b) := by
  intro p hp
  cases p with
  | reg r =>
    have hr : r ≠ x := fun h => hp (congrArg Part.reg h)
    exact (State.reg_setReg s x r b).trans (if_neg hr)
  | _ => rfl

/-- The fall-through after an operation adds PC, and no other part, to what the operation changes (R13, R24). -/
theorem OnlyChanges.fallThrough {changed : Part → Prop} {s u : State} (h : OnlyChanges changed s u) :
    OnlyChanges (fun p => p = .pc ∨ changed p) s u.fallThrough := by
  intro p hp
  have hu : p.same s u := h p (mt Or.inr hp)
  cases p with
  | pc => exact absurd (Or.inl rfl) hp
  | _ => exact hu

/-- A register written before the fall-through holds the byte written. -/
theorem State.reg_setReg_fallThrough (s : State) (x : RegNo) (b : Byte) : (s.setReg x b).fallThrough.reg x = b :=
  (State.reg_setReg s x x b).trans (if_pos rfl)

/-- The fall-through after a register write lands 2 on, modulo 65536 (R24). -/
theorem State.setReg_fallThrough_pc_toNat (s : State) (x : RegNo) (b : Byte) :
    (s.setReg x b).fallThrough.pc.toNat = (s.pc.toNat + 2) % 65536 :=
  (s.setReg x b).advance_pc_toNat 2

/-- Settles O26: each operation is one write of V[X] and the fall-through; the sum of two bytes is the sum of their numbers
modulo 256. -/
theorem immediateLoadAndAdd : Obligations.ImmediateLoadAndAdd := by
  refine ⟨decodesAs_op6XNN, decodesAs_op7XNN, fun s x nn => ⟨?_, ?_⟩⟩
  · exact ⟨(s.setReg x nn).fallThrough, rfl, s.reg_setReg_fallThrough x nn, s.setReg_fallThrough_pc_toNat x nn,
      (s.onlyChanges_setReg x nn).fallThrough⟩
  · have hsum : ((s.setReg x (s.reg x + nn)).fallThrough.reg x).toNat = ((s.reg x).toNat + nn.toNat) % 256 := by
      rw [State.reg_setReg_fallThrough, BitVec.toNat_add]
    exact ⟨(s.setReg x (s.reg x + nn)).fallThrough, rfl, hsum, s.setReg_fallThrough_pc_toNat x _,
      (s.onlyChanges_setReg x _).fallThrough⟩

end Sys2Proof.Machine

/-! SUPPORT. Family 43_alu_8xyn: what an operation with a flag leaves, result first and flag second, then the fall-through
(spec/43_alu_8xyn.md R131), and the addition with carry (R136). -/

namespace Sys2Proof.Machine

/-- A result and its flag change no part but V[X] and VF (R22, R26). -/
theorem State.onlyChanges_setResultFlag (s : State) (x : RegNo) (b : Byte) (f : Bool) :
    OnlyChanges (fun p => p = .reg x ∨ p = .reg 0xF) s (s.setResultFlag x b f) := by
  intro p hp
  cases p with
  | reg r =>
    have hx : r ≠ x := fun h => hp (.inl (congrArg Part.reg h))
    have hF : r ≠ regVF := fun h => hp (.inr (congrArg Part.reg h))
    exact (State.reg_setResultFlag s x r b f).trans ((if_neg hF).trans (if_neg hx))
  | _ => rfl

/-- V[X] holds the result unless it is VF itself. -/
theorem State.reg_setResultFlag_fallThrough_of_ne (s : State) {x : RegNo} (b : Byte) (f : Bool) (hx : x ≠ 0xF) :
    (s.setResultFlag x b f).fallThrough.reg x = b :=
  (State.reg_setResultFlag s x x b f).trans ((if_neg hx).trans (if_pos rfl))

/-- VF holds the flag whatever X is (R131). -/
theorem State.regVF_setResultFlag_fallThrough (s : State) (x : RegNo) (b : Byte) (f : Bool) :
    (s.setResultFlag x b f).fallThrough.reg 0xF = flagByte f :=
  (State.reg_setResultFlag s x regVF b f).trans (if_pos rfl)

/-- The fall-through after a result and its flag lands 2 on, modulo 65536 (R24). -/
theorem State.setResultFlag_fallThrough_pc_toNat (s : State) (x : RegNo) (b : Byte) (f : Bool) :
    (s.setResultFlag x b f).fallThrough.pc.toNat = (s.pc.toNat + 2) % 65536 :=
  (s.setResultFlag x b f).advance_pc_toNat 2

/-- The flag byte of a decided test is 1 when the test holds and 0 when it does not (R26). -/
theorem flagByte_decide (P : Prop) [Decidable P] : flagByte (decide P) = if P then 0x01#8 else 0x00#8 := by
  simp only [flagByte, decide_eq_true_eq]

/-- Settles O28: the sum of two bytes is the sum of their numbers modulo 256, and the carry, written after it, decides
whether the unbounded sum exceeds 255. -/
theorem addSetsCarry : Obligations.AddSetsCarry := by
  refine ⟨decodesAs_op8XY4, fun s x y => ⟨_, rfl, fun hx => ?sum, ?carry,
    s.setResultFlag_fallThrough_pc_toNat x _ _, (s.onlyChanges_setResultFlag x _ _).fallThrough⟩⟩
  case sum => rw [s.reg_setResultFlag_fallThrough_of_ne _ _ hx, BitVec.toNat_add]
  case carry => rw [State.regVF_setResultFlag_fallThrough, carryOut, flagByte_decide]

end Sys2Proof.Machine

/-! SUPPORT. Family 47_family_f: the frames of the operations of family F and of two operations in a row, a block write read
back, and the timer moves, the glyph pointer, the decimal digits and the block store and load
(spec/47_family_f.md R180, R183, R184, R186 to R189). -/

namespace Sys2Proof.Machine

/-! ### Frames -/

section

variable {changed changed' : Part → Prop} {s t u : State}

/-- A part that reads the same after each of two operations reads the same after both. -/
theorem Part.same_trans {p : Part} (hst : p.same s t) (htu : p.same t u) : p.same s u := by
  cases p <;> exact Eq.trans htu hst

/-- Two operations in a row change no part but those one of them changes; the later operation's parts stand first. -/
theorem OnlyChanges.andThen (hst : OnlyChanges changed s t) (htu : OnlyChanges changed' t u) :
    OnlyChanges (fun p => changed' p ∨ changed p) s u :=
  fun p hp => Part.same_trans (hst p (mt Or.inr hp)) (htu p (mt Or.inl hp))

/-- A frame may name more parts than change. -/
theorem OnlyChanges.mono (h : OnlyChanges changed s t) (hsub : ∀ p, changed p → changed' p) : OnlyChanges changed' s t :=
  fun p hp => h p (mt (hsub p) hp)

end

/-- A write of I changes no other part (R27). -/
theorem State.onlyChanges_setI (s : State) (w : Word) : OnlyChanges (fun p => p = .i) s (s.setI w) := by
  intro p hp
  cases p with
  | i => exact absurd rfl hp
  | _ => rfl

/-- A write of DT changes no other part (R30). -/
theorem State.onlyChanges_setDt (s : State) (b : Byte) : OnlyChanges (fun p => p = .dt) s (s.setDt b) := by
  intro p hp
  cases p with
  | dt => exact absurd rfl hp
  | _ => rfl

/-- A write of ST changes no other part (R31). -/
theorem State.onlyChanges_setSt (s : State) (b : Byte) : OnlyChanges (fun p => p = .st) s (s.setSt b) := by
  intro p hp
  cases p with
  | st => exact absurd rfl hp
  | _ => rfl

/-- A block write changes no part but the bytes at its effective addresses (R53, R192). -/
theorem State.onlyChanges_memWriteList (s : State) (base : Word) (bs : List Byte) :
    OnlyChanges (fun p => ∃ k < bs.length, p = .mem (effAddr base k)) s (s.memWriteList base 0 bs) := by
  intro p hp
  cases p with
  | mem a =>
    refine s.byteAt_memWriteList_other a base 0 bs fun k hk hka => hp ⟨k, hk, ?_⟩
    rw [← hka, Nat.zero_add]
  | _ =>
    rw [State.memWriteList_eq]
    rfl

/-- Loading registers from V0 up changes no part but the registers loaded (R189). -/
theorem State.onlyChanges_setRegsFrom (s : State) {bs : List Byte} (hbs : bs.length ≤ 16) :
    OnlyChanges (fun p => ∃ k : RegNo, k.val < bs.length ∧ p = .reg k) s (s.setRegsFrom 0 bs) := by
  intro p hp
  cases p with
  | reg q =>
    have hq : ¬ q.val < bs.length := fun hlt => hp ⟨q, hlt, rfl⟩
    exact (s.reg_setRegsFrom 0 bs (by omega) q).trans (dif_neg (by omega))
  | _ =>
    rw [State.setRegsFrom_eq]
    rfl

/-! ### PC and I after an operation of the family -/

/-- The fall-through from a state with PC still in place lands 2 on, modulo 65536 (R24). -/
theorem State.fallThrough_pc_toNat {s u : State} (hu : u.pc = s.pc) :
    u.fallThrough.pc.toNat = (s.pc.toNat + 2) % 65536 := by
  rw [← hu]
  exact u.advance_pc_toNat 2

/-- I past a block of the registers V0 to VX: X + 1 further on, modulo 65536 (R188, R189). -/
theorem index_past_block_toNat (w : Word) (x : RegNo) :
    (w + BitVec.ofNat 16 (x.val + 1)).toNat = (w.toNat + x.val + 1) % 65536 := by
  rw [BitVec.toNat_add, BitVec.toNat_ofNat, Nat.add_mod_mod, Nat.add_assoc]

/-! ### The values moved -/

/-- Byte k of a block write, read back at offset k from its base. -/
theorem State.byteAt_memWriteList_zero (s : State) (base : Word) (bs : List Byte) {k : Nat} (hk : k < bs.length)
    (hbs : bs.length ≤ 4096) : (s.memWriteList base 0 bs).byteAt (effAddr base k) = bs[k] := by
  simpa using s.byteAt_memWriteList base 0 bs k hk (by simpa using hbs)

/-- The glyph pointer is five times the byte as a number: the 16-bit product does not wrap (R186). -/
theorem glyphAddr_toNat (b : Byte) : (glyphAddr b).toNat = b.toNat * 5 := by
  have hb : b.toNat < 256 := b.isLt
  have hmul : (glyphAddr b).toNat = b.toNat * 5 % 65536 := by
    rw [glyphAddr, BitVec.toNat_mul, zextByte_toNat]
    rfl
  omega

/-- A number below 256 survives the cut to a byte. -/
theorem byte_ofNat_toNat {n : Nat} (h : n < 256) : (BitVec.ofNat 8 n).toNat = n :=
  (BitVec.toNat_ofNat n 8).trans (Nat.mod_eq_of_lt h)

/-- The registers V0 to VX as a list, register by register. -/
theorem State.take_regs_getElem (s : State) (x k : RegNo) (hk : k.val < (s.v.toList.take (x.val + 1)).length) :
    (s.v.toList.take (x.val + 1))[k.val] = s.reg k := by
  rw [List.getElem_take, Vector.getElem_toList]
  rfl

/-- The list of the registers V0 to VX has X + 1 elements. -/
theorem State.take_regs_length (s : State) (x : RegNo) : (s.v.toList.take (x.val + 1)).length = x.val + 1 := by
  rw [List.length_take, Vector.length_toList]
  omega

/-! ### The obligations -/

/-- Settles O42: the digits are one block write of three bytes at I, and each digit fits a byte. -/
theorem bcdStoresThreeDigits : Obligations.BcdStoresThreeDigits := by
  refine ⟨decodesAs_opFX33, fun s x => ⟨(s.memWriteList s.i 0 (bcdDigits (s.reg x))).fallThrough, rfl, ?_⟩⟩
  have hreg : (s.reg x).toNat < 256 := (s.reg x).isLt
  have hbyte (k : Nat) (hk : k < 3) :
      ((s.memWriteList s.i 0 (bcdDigits (s.reg x))).fallThrough.byteAt (effAddr s.i k)).toNat =
        (bcdDigits (s.reg x))[k].toNat :=
    congrArg BitVec.toNat (s.byteAt_memWriteList_zero s.i (bcdDigits (s.reg x)) hk (by simp [bcdDigits]))
  refine ⟨?hundreds, ?tens, ?ones, State.fallThrough_pc_toNat (State.memWriteList_pc ..),
    (s.onlyChanges_memWriteList s.i (bcdDigits (s.reg x))).fallThrough⟩
  case hundreds => exact (hbyte 0 (by omega)).trans (byte_ofNat_toNat (by omega))
  case tens => exact (hbyte 1 (by omega)).trans (byte_ofNat_toNat (by omega))
  case ones => exact (hbyte 2 (by omega)).trans (byte_ofNat_toNat (by omega))

/-- Settles O43: a block write of V0 to VX at I, then a write of I. -/
theorem storeRegistersBlock : Obligations.StoreRegistersBlock := by
  refine ⟨decodesAs_opFX55, fun s x => ?_⟩
  have hlen : (s.v.toList.take (x.val + 1)).length = x.val + 1 := s.take_regs_length x
  refine ⟨_, rfl, fun k hk => ?stored, index_past_block_toNat s.i x,
    State.fallThrough_pc_toNat (State.memWriteList_pc ..), ?frame⟩
  case stored =>
    have hlt : k.val < (s.v.toList.take (x.val + 1)).length := (Nat.lt_succ_of_le hk).trans_eq hlen.symm
    exact (s.byteAt_memWriteList_zero s.i _ hlt (by omega)).trans (s.take_regs_getElem x k hlt)
  case frame =>
    have hmem : OnlyChanges (fun p => ∃ k ≤ x.val, p = .mem (effAddr s.i k)) s
        (s.memWriteList s.i 0 (s.v.toList.take (x.val + 1))) :=
      (s.onlyChanges_memWriteList s.i _).mono fun _ ⟨k, hk, hp⟩ => ⟨k, Nat.le_of_lt_succ (hk.trans_eq hlen), hp⟩
    exact (hmem.andThen (State.onlyChanges_setI _ _)).fallThrough

/-- Settles O44: a block read from I into V0 to VX, then a write of I. -/
theorem loadRegistersBlock : Obligations.LoadRegistersBlock := by
  refine ⟨decodesAs_opFX65, fun s x => ?_⟩
  have hlen : (s.memReadList s.i (x.val + 1)).length = x.val + 1 := s.memReadList_length s.i _
  refine ⟨_, rfl, fun k hk => ?loaded, index_past_block_toNat s.i x,
    State.fallThrough_pc_toNat (State.setRegsFrom_pc ..), ?frame⟩
  case loaded =>
    have hlt : k.val < x.val + 1 := Nat.lt_succ_of_le hk
    have hreg := s.reg_setRegsFrom 0 (s.memReadList s.i (x.val + 1)) (by omega) k
    rw [dif_pos ⟨Nat.zero_le _, by omega⟩] at hreg
    exact hreg.trans (s.memReadList_getElem s.i _ _ _)
  case frame =>
    have hregs : OnlyChanges (fun p => ∃ k ≤ x, p = .reg k) s (s.setRegsFrom 0 (s.memReadList s.i (x.val + 1))) :=
      (s.onlyChanges_setRegsFrom (by omega)).mono fun _ ⟨k, hk, hp⟩ => ⟨k, Nat.le_of_lt_succ (hk.trans_eq hlen), hp⟩
    exact (hregs.andThen (State.onlyChanges_setI _ _)).fallThrough

/-- Settles O39: each timer move is one write, of V[X], DT or ST, and the fall-through. -/
theorem timerMoves : Obligations.TimerMoves := by
  refine ⟨decodesAs_opFX07, decodesAs_opFX15, decodesAs_opFX18, fun s x => ⟨?readDelay, ?setDelay, ?setSound⟩⟩
  case readDelay =>
    exact ⟨(s.setReg x s.dt).fallThrough, rfl, s.reg_setReg_fallThrough x s.dt, s.setReg_fallThrough_pc_toNat x s.dt,
      (s.onlyChanges_setReg x s.dt).fallThrough⟩
  case setDelay =>
    exact ⟨(s.setDt (s.reg x)).fallThrough, rfl, rfl, State.fallThrough_pc_toNat (s.setDt_pc _),
      (s.onlyChanges_setDt (s.reg x)).fallThrough⟩
  case setSound =>
    exact ⟨(s.setSt (s.reg x)).fallThrough, rfl, rfl, State.fallThrough_pc_toNat (s.setSt_pc _),
      (s.onlyChanges_setSt (s.reg x)).fallThrough⟩

/-- Settles O41: one write of I with the glyph pointer, and the fall-through. -/
theorem glyphPointerIsFiveTimes : Obligations.GlyphPointerIsFiveTimes :=
  ⟨decodesAs_opFX29, fun s x => ⟨(s.setI (glyphAddr (s.reg x))).fallThrough, rfl, glyphAddr_toNat (s.reg x),
    State.fallThrough_pc_toNat (s.setI_pc _), (s.onlyChanges_setI _).fallThrough⟩⟩

end Sys2Proof.Machine

/-! SUPPORT. Family 70_reset_and_hazards: what the host's reset sets and what it keeps (spec/70_reset_and_hazards.md R240). -/

namespace Sys2Proof.Machine

section

variable (s : State)

/-- The host's reset keeps the configuration (R43). -/
@[simp] theorem State.hostReset_cfg : s.hostReset.cfg = s.cfg := rfl

/-- The host's reset keeps the script. -/
@[simp] theorem State.hostReset_host : s.hostReset.host = s.host := rfl

/-- The host's reset empties the list of stored bytes. -/
@[simp] theorem State.hostReset_mem : s.hostReset.mem = [] := rfl

/-- The host's reset sets the elements of R20 but MEM as `State.reset` has them: the fields in which the two states
differ are the host's and none of these (R240). -/
theorem State.hostReset_resetButMem : s.hostReset.ResetButMem :=
  { State.reset_resetButMem with }

/-- MEM after the host's reset is FONT of the kept configuration, then zeros (R240). -/
theorem State.hostReset_resetMem : s.hostReset.ResetMem :=
  State.resetMem_of_mem_nil s.hostReset_mem

end

/-- Settles O14: the step is the reset of the state whose script has used up the move. -/
theorem hostResetFromAnyState : Obligations.HostResetFromAnyState := by
  intro s rest hmove
  exact ⟨(s.setHost rest s.draws).hostReset, step_move hmove, State.hostReset_resetButMem _,
    State.hostReset_resetMem _, State.hostReset_cfg _, State.hostReset_host _⟩

end Sys2Proof.Machine

/-! SUPPORT. Family other: the encoder and the decoder undo each other, the opcode table covers each word at most once, and the
words no row covers (spec/30_encoding.md R72 to R87). -/

namespace Sys2Proof

/-! ### Encoding, then decoding -/

/-- The word of an instruction decodes to it: the fields of its format are its operands, and its function code selects it
(R76 to R79). -/
theorem decode_encode (i : Instr) : decode (encode i) = .ok i := by
  cases i with
  | op00E0 | op00EE | op00FE | op00FF => simp [encode, wordFN, decode, decodeFamily0]
  | op8XY0 x y | op8XY1 x y | op8XY2 x y | op8XY3 x y | op8XY4 x y | op8XY5 x y | op8XY6 x y | op8XY7 x y | op8XYE x y =>
    simp [encode, decode, decodeFamily8, nibble]
  | opEX9E x | opEXA1 x => simp [encode, decode, decodeFamilyE]
  | opFX07 x | opFX0A x | opFX15 x | opFX18 x | opFX1E x | opFX29 x | opFX33 x | opFX55 x | opFX65 x =>
    simp [encode, decode, decodeFamilyF]
  | _ => simp [encode, decode]

/-- The two bytes of an instruction, with anything after them, decode to it and what is after them (R50). -/
theorem decodeBytes_encodeBytes (i : Instr) (rest : List Byte) : decodeBytes (encodeBytes i ++ rest) = .ok (i, rest) := by
  simp [encodeBytes, decodeBytes, decode_encode]

/-- Every instruction is well-formed and its word is selected by a row of its mnemonic: the constructors' lemmas, put
together. -/
theorem encoding_statement (i : Instr) : Laws.Encoding.Statement i := by
  cases i with
  | op00E0 => exact Laws.Encoding.op00E0
  | op00EE => exact Laws.Encoding.op00EE
  | op00FE => exact Laws.Encoding.op00FE
  | op00FF => exact Laws.Encoding.op00FF
  | op1NNN nnn => exact Laws.Encoding.op1NNN nnn
  | op2NNN nnn => exact Laws.Encoding.op2NNN nnn
  | op3XNN x nn => exact Laws.Encoding.op3XNN x nn
  | op4XNN x nn => exact Laws.Encoding.op4XNN x nn
  | op5XY0 x y => exact Laws.Encoding.op5XY0 x y
  | op6XNN x nn => exact Laws.Encoding.op6XNN x nn
  | op7XNN x nn => exact Laws.Encoding.op7XNN x nn
  | op8XY0 x y => exact Laws.Encoding.op8XY0 x y
  | op8XY1 x y => exact Laws.Encoding.op8XY1 x y
  | op8XY2 x y => exact Laws.Encoding.op8XY2 x y
  | op8XY3 x y => exact Laws.Encoding.op8XY3 x y
  | op8XY4 x y => exact Laws.Encoding.op8XY4 x y
  | op8XY5 x y => exact Laws.Encoding.op8XY5 x y
  | op8XY6 x y => exact Laws.Encoding.op8XY6 x y
  | op8XY7 x y => exact Laws.Encoding.op8XY7 x y
  | op8XYE x y => exact Laws.Encoding.op8XYE x y
  | op9XY0 x y => exact Laws.Encoding.op9XY0 x y
  | opANNN nnn => exact Laws.Encoding.opANNN nnn
  | opBNNN nnn => exact Laws.Encoding.opBNNN nnn
  | opCXNN x nn => exact Laws.Encoding.opCXNN x nn
  | opDXYN x y n => exact Laws.Encoding.opDXYN x y n
  | opEX9E x => exact Laws.Encoding.opEX9E x
  | opEXA1 x => exact Laws.Encoding.opEXA1 x
  | opFX07 x => exact Laws.Encoding.opFX07 x
  | opFX0A x => exact Laws.Encoding.opFX0A x
  | opFX15 x => exact Laws.Encoding.opFX15 x
  | opFX18 x => exact Laws.Encoding.opFX18 x
  | opFX1E x => exact Laws.Encoding.opFX1E x
  | opFX29 x => exact Laws.Encoding.opFX29 x
  | opFX33 x => exact Laws.Encoding.opFX33 x
  | opFX55 x => exact Laws.Encoding.opFX55 x
  | opFX65 x => exact Laws.Encoding.opFX65 x

/-- Settles O1: the formats' fields undo the formats, on the word and on its two bytes. -/
theorem encodedInstructionDecodesBack : Obligations.EncodedInstructionDecodesBack :=
  fun i rest => ⟨(encoding_statement i).1, decode_encode i, decodeBytes_encodeBytes i rest⟩

/-! ### Decoding, then encoding -/

section

variable {w : Word} {i : Instr}

/-- What is left of a word without its low nibble, as fields (R82). -/
theorem and_not_000F (w : Word) : w &&& ~~~0x000F#16 = wordXYN (fieldOP w) (fieldX w) (fieldY w) 0 := by
  apply BitVec.eq_of_getLsbD_eq
  intro k hk
  simp only [wordXYN, nibble_fieldX, nibble_fieldY, fieldOP, BitVec.getLsbD_and, BitVec.getLsbD_append,
    BitVec.getLsbD_extractLsb']
  interval_cases k <;> simp [nibble]

/-- Clearing no bit clears nothing. -/
theorem and_not_zero (w : Word) : w &&& ~~~0#16 = w :=
  BitVec.and_allOnes

/-- A word with the OP and the low byte of format E-FN is its format's but for w[11:8] (R82). -/
theorem wordFN_eq_of_fields {nn : Byte} (ho : fieldOP w = 0x0#4) (hnn : fieldNN w = nn) :
    wordFN nn = w &&& ~~~0x0F00#16 := by
  subst hnn
  exact (ho ▸ and_F0FF w).symm

/-- A word with the OP of format A-NNN is its format's, no bit cleared. -/
theorem wordNNN_eq_of_fields {o : BitVec 4} (ho : fieldOP w = o) : wordNNN o (fieldNNN w) = w &&& ~~~0#16 :=
  (ho ▸ wordNNN_fields w).trans (and_not_zero w).symm

/-- A word with the OP and the low byte of format B-XNN is its format's, no bit cleared. -/
theorem wordXNN_eq_of_fields {o : BitVec 4} {nn : Byte} (ho : fieldOP w = o) (hnn : fieldNN w = nn) :
    wordXNN o (fieldX w) nn = w &&& ~~~0#16 :=
  (ho ▸ hnn ▸ wordXNN_fields w).trans (and_not_zero w).symm

/-- A word with the OP and the low nibble of format C-XYN is its format's, no bit cleared. -/
theorem wordXYN_eq_of_fields {o n : BitVec 4} (ho : fieldOP w = o) (hn : fieldFn w = n) :
    wordXYN o (fieldX w) (fieldY w) n.toFin = w &&& ~~~0#16 := by
  subst hn
  exact (ho ▸ wordXYN_fields w).trans (and_not_zero w).symm

theorem encode_of_decodeFamily0 (ho : fieldOP w = 0x0#4) (h : decodeFamily0 w = .ok i) :
    encode i = w &&& ~~~ignoredBits i := by
  unfold decodeFamily0 at h
  split at h <;> cases h <;> exact wordFN_eq_of_fields ho (by assumption)

theorem encode_of_decodeFamily8 (ho : fieldOP w = 0x8#4) (h : decodeFamily8 w = .ok i) :
    encode i = w &&& ~~~ignoredBits i := by
  unfold decodeFamily8 at h
  split at h <;> cases h <;> exact wordXYN_eq_of_fields ho (by assumption)

theorem encode_of_decodeFamilyE (ho : fieldOP w = 0xE#4) (h : decodeFamilyE w = .ok i) :
    encode i = w &&& ~~~ignoredBits i := by
  unfold decodeFamilyE at h
  split at h <;> cases h <;> exact wordXNN_eq_of_fields ho (by assumption)

theorem encode_of_decodeFamilyF (ho : fieldOP w = 0xF#4) (h : decodeFamilyF w = .ok i) :
    encode i = w &&& ~~~ignoredBits i := by
  unfold decodeFamilyF at h
  split at h <;> cases h <;> exact wordXNN_eq_of_fields ho (by assumption)

end

/-- Settles O2: a family word is its family's case; outside the four families OP decides alone, and the instruction keeps all
fields of the word but the low nibble of 5XY0 and 9XY0. -/
theorem decodedWordEncodesBack : Obligations.DecodedWordEncodesBack := by
  intro w i h
  unfold decode at h
  split at h
  case h_1 ho => exact encode_of_decodeFamily0 ho h
  case h_9 ho => exact encode_of_decodeFamily8 ho h
  case h_15 ho => exact encode_of_decodeFamilyE ho h
  case h_16 =>
    have ho : fieldOP w = 0xF#4 := by
      have hop := nibble_cases (fieldOP w)
      simp_all
    exact encode_of_decodeFamilyF ho h
  case h_6 ho | h_10 ho =>
    cases h
    exact (ho ▸ and_not_000F w).symm
  case h_2 ho | h_3 ho | h_11 ho | h_12 ho =>
    cases h
    exact wordNNN_eq_of_fields ho
  case h_4 ho | h_5 ho | h_7 ho | h_8 ho | h_13 ho =>
    cases h
    exact wordXNN_eq_of_fields ho rfl
  case h_14 ho =>
    cases h
    exact wordXYN_eq_of_fields ho rfl

/-! ### The opcode table -/

/-- The three masks of the table, each with the families whose rows have it (R74). -/
theorem opcodeTable_masks : ∀ r ∈ opcodeTable, r.mask = 0xF000#16 ∨ (r.mask = 0xF00F#16 ∧ fieldOP r.bits = 0x8#4) ∨
    (r.mask = 0xF0FF#16 ∧ (fieldOP r.bits = 0x0#4 ∨ fieldOP r.bits = 0xE#4 ∨ fieldOP r.bits = 0xF#4)) := by
  decide

/-- Two rows whose bits agree wherever both masks look are one row. -/
theorem opcodeTable_disjoint :
    ∀ r ∈ opcodeTable, ∀ r' ∈ opcodeTable, r.bits &&& r'.mask = r'.bits &&& r.mask → r = r' := by
  decide

theorem OpcodeRow.selects_iff (r : OpcodeRow) (w : Word) : r.selects w = true ↔ w &&& r.mask = r.bits :=
  beq_iff_eq

/-- Two rows that select one word are one row. -/
theorem OpcodeRow.eq_of_selects {r r' : OpcodeRow} (hr : r ∈ opcodeTable) (hr' : r' ∈ opcodeTable) {w : Word}
    (h : r.selects w = true) (h' : r'.selects w = true) : r = r' := by
  rw [OpcodeRow.selects_iff] at h h'
  refine opcodeTable_disjoint r hr r' hr' ?_
  rw [← h, ← h', BitVec.and_assoc, BitVec.and_assoc, BitVec.and_comm r.mask]

/-- Each row's words decode: its bits and its mask are the encoding line of an instruction (R74). -/
theorem opcodeTable_decodesAs : ∀ r ∈ opcodeTable, ∃ instr, DecodesAs r.bits r.mask instr := by
  simp only [opcodeTable, opcodeTableOP, opcodeTable8, opcodeTableEF, List.cons_append, List.nil_append,
    List.forall_mem_cons]
  exact ⟨⟨_, decodesAs_op00E0⟩, ⟨_, decodesAs_op00EE⟩, ⟨_, decodesAs_op00FE⟩, ⟨_, decodesAs_op00FF⟩,
    ⟨_, decodesAs_op1NNN⟩, ⟨_, decodesAs_op2NNN⟩, ⟨_, decodesAs_op3XNN⟩, ⟨_, decodesAs_op4XNN⟩,
    ⟨_, decodesAs_op5XY0⟩, ⟨_, decodesAs_op6XNN⟩, ⟨_, decodesAs_op7XNN⟩, ⟨_, decodesAs_op9XY0⟩,
    ⟨_, decodesAs_opANNN⟩, ⟨_, decodesAs_opBNNN⟩, ⟨_, decodesAs_opCXNN⟩, ⟨_, decodesAs_opDXYN⟩,
    ⟨_, decodesAs_op8XY0⟩, ⟨_, decodesAs_op8XY1⟩, ⟨_, decodesAs_op8XY2⟩, ⟨_, decodesAs_op8XY3⟩,
    ⟨_, decodesAs_op8XY4⟩, ⟨_, decodesAs_op8XY5⟩, ⟨_, decodesAs_op8XY6⟩, ⟨_, decodesAs_op8XY7⟩,
    ⟨_, decodesAs_op8XYE⟩, ⟨_, decodesAs_opEX9E⟩, ⟨_, decodesAs_opEXA1⟩, ⟨_, decodesAs_opFX07⟩,
    ⟨_, decodesAs_opFX0A⟩, ⟨_, decodesAs_opFX15⟩, ⟨_, decodesAs_opFX18⟩, ⟨_, decodesAs_opFX1E⟩,
    ⟨_, decodesAs_opFX29⟩, ⟨_, decodesAs_opFX33⟩, ⟨_, decodesAs_opFX55⟩, ⟨_, decodesAs_opFX65⟩, List.forall_mem_nil _⟩

/-- The row that selects an instruction's own word selects every word that decodes to the instruction: its mask looks at
nothing but OP and the function code of the family, and decoding keeps those. -/
theorem OpcodeRow.selects_of_decode {r : OpcodeRow} (hr : r ∈ opcodeTable) {w : Word} {i : Instr} (h : decode w = .ok i)
    (hs : r.selects (encode i) = true) : r.selects w = true := by
  rw [OpcodeRow.selects_iff] at hs ⊢
  have hop := decode_op h
  rcases opcodeTable_masks r hr with hm | ⟨hm, ho⟩ | ⟨hm, ho⟩ <;> rw [hm] at hs ⊢
  · rw [and_F000] at hs ⊢
    rw [← hs, hop]
  · rw [and_F00F] at hs ⊢
    rw [← hs, fieldOP_wordXYN] at ho
    have hn : fieldN (encode i) = fieldN w := congrArg BitVec.toFin (decode_fn8 h ho)
    rw [← hs, hop, hn]
  · rw [and_F0FF] at hs ⊢
    rw [← hs, fieldOP_wordXNN] at ho
    rw [← hs, hop, decode_nn h ho]

/-- Settles O3: a word that decodes has the row of its instruction's own word; the words of every row decode; no two rows
overlap. -/
theorem decodingIsTotalAndUnambiguous : Obligations.DecodingIsTotalAndUnambiguous := by
  refine ⟨fun w => ?_, fun r hr r' hr' w h h' => OpcodeRow.eq_of_selects hr hr' h h'⟩
  cases hd : decode w with
  | ok i =>
    obtain ⟨-, r, hr, hname, hsel⟩ := encoding_statement i
    have hw : r.selects w = true := OpcodeRow.selects_of_decode hr hd hsel
    exact .inl ⟨i, r, rfl, hr, hname, fun r' hr' => ⟨fun h' => OpcodeRow.eq_of_selects hr' hr h' hw, fun e => e ▸ hw⟩⟩
  | error e =>
    refine .inr ⟨congrArg _ (decode_error hd), fun r hr => Bool.eq_false_iff.mpr fun hsel => ?_⟩
    obtain ⟨instr, hrow⟩ := opcodeTable_decodesAs r hr
    have hok := (hrow w).mp ((r.selects_iff w).mp hsel)
    cases hd.symm.trans hok

/-! ### The unknown words -/

section

variable (w : Word)

theorem fieldOP_eq_iff (o : BitVec 4) : fieldOP w = o ↔ w.toNat / 4096 = o.toNat := by
  have := w.isLt
  rw [← BitVec.toNat_inj, fieldOP_toNat]
  omega

theorem fieldNN_eq_iff (b : Byte) : fieldNN w = b ↔ w.toNat % 256 = b.toNat := by
  rw [← BitVec.toNat_inj, fieldNN_toNat]

theorem fieldFn_eq_iff (n : BitVec 4) : fieldFn w = n ↔ w.toNat % 16 = n.toNat := by
  rw [← BitVec.toNat_inj, fieldFn_toNat]

/-- Family 0 rejects a word exactly when its low byte is none of the four (R77). -/
theorem decodeFamily0_error :
    decodeFamily0 w = .error (.unknownOpcode w) ↔ w.toNat % 256 ∉ [0xE0, 0xEE, 0xFE, 0xFF] := by
  unfold decodeFamily0
  split <;> simp_all [fieldNN_eq_iff]

/-- Family 8 rejects a word exactly when its low nibble is one of the seven without a function (R78). -/
theorem decodeFamily8_error :
    decodeFamily8 w = .error (.unknownOpcode w) ↔ w.toNat % 16 ∈ [0x8, 0x9, 0xA, 0xB, 0xC, 0xD, 0xF] := by
  unfold decodeFamily8
  split <;> simp_all [fieldFn_eq_iff]
  omega

/-- Family E rejects a word exactly when its low byte is neither of the two (R79). -/
theorem decodeFamilyE_error :
    decodeFamilyE w = .error (.unknownOpcode w) ↔ w.toNat % 256 ∉ [0x9E, 0xA1] := by
  unfold decodeFamilyE
  split <;> simp_all [fieldNN_eq_iff]

/-- Family F rejects a word exactly when its low byte is none of the nine (R79). -/
theorem decodeFamilyF_error :
    decodeFamilyF w = .error (.unknownOpcode w) ↔
      w.toNat % 256 ∉ [0x07, 0x0A, 0x15, 0x18, 0x1E, 0x29, 0x33, 0x55, 0x65] := by
  unfold decodeFamilyF
  split <;> simp_all [fieldNN_eq_iff]

end

/-- Settles O4: the four families each reject their own words, and any other OP decides alone. -/
theorem unknownWordsByFamily : Obligations.UnknownWordsByFamily := by
  intro w
  rcases decode_of_op w with ⟨ho, hd⟩ | ⟨ho, hd⟩ | ⟨ho, hd⟩ | ⟨ho, hd⟩ | ⟨h0, h8, hE, hF, i, hd, -⟩
  · rw [hd, decodeFamily0_error]
    simp [(fieldOP_eq_iff w _).mp ho]
  · rw [hd, decodeFamily8_error]
    simp [(fieldOP_eq_iff w _).mp ho]
  · rw [hd, decodeFamilyE_error]
    simp [(fieldOP_eq_iff w _).mp ho]
  · rw [hd, decodeFamilyF_error]
    simp [(fieldOP_eq_iff w _).mp ho]
  · rw [Ne, fieldOP_eq_iff] at h0 h8 hE hF
    rw [hd]
    simp_all

/-- Settles O5: each word is one row of the table, and 0000 is of none. -/
theorem sampleWordsDecode : Obligations.SampleWordsDecode := by
  unfold Obligations.SampleWordsDecode
  decide

end Sys2Proof

/-! SUPPORT. Family other: the parts each instruction may change, and who writes what (spec/10_state.md R20 to R43). -/

namespace Sys2Proof.Machine

/-! ### Frames of the remaining operations -/

section

variable (s : State)

/-- A write of EXT changes no other part (R32). -/
theorem State.onlyChanges_setExt (e : Bool) : OnlyChanges (fun p => p = .ext) s (s.setExt e) := by
  intro p hp
  cases p with
  | ext => exact absurd rfl hp
  | _ => rfl

/-- A write of DIRTY changes no other part (R33). -/
theorem State.onlyChanges_setDirty (d : Bool) : OnlyChanges (fun p => p = .dirty) s (s.setDirty d) := by
  intro p hp
  cases p with
  | dirty => exact absurd rfl hp
  | _ => rfl

/-- A write of FAULT changes no other part (R35). -/
theorem State.onlyChanges_setFault (c : FaultCode) : OnlyChanges (fun p => p = .fault) s (s.setFault c) := by
  intro p hp
  cases p with
  | fault => exact absurd rfl hp
  | _ => rfl

/-- A write of the framebuffer changes cells only (R39). -/
theorem State.onlyChanges_setFb (fb : FrameBuffer) : OnlyChanges (fun p => ∃ q, p = .cell q) s (s.setFb fb) := by
  intro p hp
  cases p with
  | cell q => exact absurd ⟨q, rfl⟩ hp
  | _ => rfl

/-- A write of VF changes no other part (R26). -/
theorem State.onlyChanges_setFlag (f : Bool) : OnlyChanges (fun p => p = .reg 0xF) s (s.setFlag f) :=
  s.onlyChanges_setReg regVF (flagByte f)

/-- A change of the stack's depth alone changes SP only (R28). -/
theorem State.onlyChanges_setStack_sp (sp : Fin 17) : OnlyChanges (fun p => p = .sp) s (s.setStack s.stack sp) := by
  intro p hp
  cases p with
  | sp => exact absurd rfl hp
  | _ => rfl

/-- A write of one stack entry and SP changes no other part (R29). -/
theorem State.onlyChanges_setStack_set (k : Fin 16) (w : Word) (sp : Fin 17) :
    OnlyChanges (fun p => p = .sp ∨ p = .stack k) s (s.setStack (s.stack.set k w) sp) := by
  intro p hp
  cases p with
  | sp => exact absurd (.inl rfl) hp
  | stack j =>
    have hj : k.val ≠ j.val := fun h => hp (.inr (congrArg Part.stack (Fin.ext h.symm)))
    exact Vector.getElem_set_ne k.isLt j.isLt hj
  | _ => rfl

end

/-! ### The parts each instruction may change -/

/-- The parts of the state an instruction may change: its destinations, PC, and FAULT for the two that can fault. -/
def mayChange (i : Instr) (s : State) (p : Part) : Prop :=
  match i with
  | .op00E0 => p = .pc ∨ p = .dirty ∨ ∃ q, p = .cell q
  | .op00EE => p = .pc ∨ p = .sp ∨ p = .fault
  | .op00FE | .op00FF => p = .pc ∨ p = .ext
  | .op1NNN _ | .op3XNN _ _ | .op4XNN _ _ | .op5XY0 _ _ | .op9XY0 _ _ | .opBNNN _ | .opEX9E _ | .opEXA1 _ => p = .pc
  | .op2NNN _ => p = .pc ∨ p = .sp ∨ (∃ j, p = .stack j) ∨ p = .fault
  | .op6XNN x _ | .op7XNN x _ | .op8XY0 x _ | .op8XY1 x _ | .op8XY2 x _ | .op8XY3 x _ | .opCXNN x _ | .opFX07 x
  | .opFX0A x => p = .pc ∨ p = .reg x
  | .op8XY4 x _ | .op8XY5 x _ | .op8XY6 x _ | .op8XY7 x _ | .op8XYE x _ => p = .pc ∨ p = .reg x ∨ p = .reg 0xF
  | .opANNN _ | .opFX29 _ => p = .pc ∨ p = .i
  | .opDXYN _ _ _ => p = .pc ∨ p = .dirty ∨ p = .reg 0xF ∨ ∃ q, p = .cell q
  | .opFX15 _ => p = .pc ∨ p = .dt
  | .opFX18 _ => p = .pc ∨ p = .st
  | .opFX1E _ => p = .pc ∨ p = .reg 0xF ∨ p = .i
  | .opFX33 _ => p = .pc ∨ ∃ k < 3, p = .mem (effAddr s.i k)
  | .opFX55 x => p = .pc ∨ p = .i ∨ ∃ k < x.val + 1, p = .mem (effAddr s.i k)
  | .opFX65 x => p = .pc ∨ p = .i ∨ ∃ k : RegNo, k.val < x.val + 1 ∧ p = .reg k

section

variable {s t : State}

/-- Every part reads the same in a state and itself. -/
theorem Part.same_refl (p : Part) : p.same s s := by
  cases p <;> rfl

/-- 00EE changes PC and SP, or FAULT (R101, R202). -/
theorem exec00EE_onlyChanges (h : exec00EE s = .next t) :
    OnlyChanges (fun p => p = .pc ∨ p = .sp ∨ p = .fault) s t := by
  obtain ⟨-, he⟩ | ⟨hsp, he⟩ := exec00EE_cases s <;> cases he.symm.trans h
  · exact (s.onlyChanges_setFault _).mono fun p hp => .inr (.inr hp)
  · exact ((s.onlyChanges_setStack_sp _).andThen (State.onlyChanges_setPc _ _)).mono fun p hp =>
      hp.imp_right .inl

/-- 2NNN changes PC, SP and a stack entry, or FAULT (R111, R201). -/
theorem exec2NNN_onlyChanges {nnn : Addr} (h : exec2NNN nnn s = .next t) :
    OnlyChanges (fun p => p = .pc ∨ p = .sp ∨ (∃ j, p = .stack j) ∨ p = .fault) s t := by
  obtain ⟨-, he⟩ | ⟨hsp, he⟩ := exec2NNN_cases s nnn <;> cases he.symm.trans h
  · exact (s.onlyChanges_setFault _).mono fun p hp => .inr (.inr (.inr hp))
  · exact ((s.onlyChanges_setStack_set ⟨s.sp.val, hsp⟩ s.pc _).andThen (State.onlyChanges_setPc _ _)).mono fun p hp =>
      hp.imp_right fun hp => hp.imp_right fun hp => .inl ⟨_, hp⟩

/-- FX0A changes PC and V[X], or nothing (R182). -/
theorem execFX0A_onlyChanges {x : RegNo} (h : execFX0A x s = .next t) :
    OnlyChanges (fun p => p = .pc ∨ p = .reg x) s t := by
  obtain ⟨-, he⟩ | ⟨k, -, -, he⟩ := execFX0A_cases s x <;> cases he.symm.trans h
  · exact fun p _ => Part.same_refl p
  · exact (s.onlyChanges_setReg x _).fallThrough

/-- DXYN changes PC, DIRTY, VF and cells (R160 to R165). -/
theorem execDXYN_onlyChanges {x y : RegNo} {n : Fin 16} (h : execDXYN x y n s = .next t) :
    OnlyChanges (fun p => p = .pc ∨ p = .dirty ∨ p = .reg 0xF ∨ ∃ q, p = .cell q) s t := by
  cases h
  exact (((s.onlyChanges_setFb _).andThen (State.onlyChanges_setFlag _ _)).andThen
    (State.onlyChanges_setDirty _ _)).fallThrough

/-- An instruction changes no part but those it may change. -/
theorem exec_onlyChanges {i : Instr} (h : exec i s = .next t) : OnlyChanges (mayChange i s) s t := by
  cases i with
  | op00EE => exact exec00EE_onlyChanges h
  | op2NNN nnn => exact exec2NNN_onlyChanges h
  | opFX0A x => exact execFX0A_onlyChanges h
  | opDXYN x y n => exact execDXYN_onlyChanges h
  | op00E0 => cases h; exact ((s.onlyChanges_setFb _).andThen (State.onlyChanges_setDirty _ _)).fallThrough
  | op00FE | op00FF => cases h; exact (s.onlyChanges_setExt _).fallThrough
  | op1NNN nnn | op3XNN x nn | op4XNN x nn | op5XY0 x y | op9XY0 x y | opBNNN nnn | opEX9E x | opEXA1 x =>
    cases h; exact s.onlyChanges_setPc _
  | op6XNN x nn | op7XNN x nn | op8XY0 x y | op8XY1 x y | op8XY2 x y | op8XY3 x y | opCXNN x nn | opFX07 x =>
    cases h; exact (s.onlyChanges_setReg x _).fallThrough
  | op8XY4 x y | op8XY5 x y | op8XY6 x y | op8XY7 x y | op8XYE x y =>
    cases h; exact (s.onlyChanges_setResultFlag x _ _).fallThrough
  | opANNN nnn | opFX29 x => cases h; exact (s.onlyChanges_setI _).fallThrough
  | opFX15 x => cases h; exact (s.onlyChanges_setDt _).fallThrough
  | opFX18 x => cases h; exact (s.onlyChanges_setSt _).fallThrough
  | opFX1E x => cases h; exact ((s.onlyChanges_setI _).andThen (State.onlyChanges_setFlag _ _)).fallThrough
  | opFX33 x => cases h; exact (s.onlyChanges_memWriteList s.i (bcdDigits (s.reg x))).fallThrough
  | opFX55 x =>
    cases h
    have hmem := s.onlyChanges_memWriteList s.i (s.v.toList.take (x.val + 1))
    rw [s.take_regs_length x] at hmem
    exact (hmem.andThen (State.onlyChanges_setI _ _)).fallThrough
  | opFX65 x =>
    cases h
    have hlen : (s.memReadList s.i (x.val + 1)).length = x.val + 1 := s.memReadList_length s.i _
    have hregs := s.onlyChanges_setRegsFrom (bs := s.memReadList s.i (x.val + 1)) (by omega)
    rw [hlen] at hregs
    exact (hregs.andThen (State.onlyChanges_setI _ _)).fallThrough

/-- A part that reads otherwise after an instruction is one it may change. -/
theorem mayChange_of_ne {i : Instr} (h : exec i s = .next t) {p : Part} (hp : ¬ p.same s t) : mayChange i s p :=
  by_contra fun hn => hp (exec_onlyChanges h p hn)

/-- A part an instruction may not change reads the same after it. -/
theorem exec_same {i : Instr} (h : exec i s = .next t) {p : Part} (hp : ¬ mayChange i s p) : p.same s t :=
  exec_onlyChanges h p hp

end

/-! ### Which instructions may change a part -/

section

variable {i : Instr} {s : State}

theorem mem_storeAddrs_of_mayChange {a : Nat} (h : mayChange i s (.mem a)) : a ∈ storeAddrs i s := by
  cases i with
  | opFX33 x | opFX55 x => simpa [mayChange, storeAddrs, eq_comm] using h
  | _ => simp [mayChange] at h

theorem clears_or_draws_of_mayChange_cell {q : Pixel} (h : mayChange i s (.cell q)) :
    i = .op00E0 ∨ ∃ x y n, i = .opDXYN x y n := by
  cases i with
  | op00E0 | opDXYN x y n => simp
  | _ => simp [mayChange] at h

theorem writesReg_of_mayChange {r : RegNo} (h : mayChange i s (.reg r)) : writesReg i r := by
  cases i with
  | opFX65 x =>
    have hr : r.val < x.val + 1 := by simpa [mayChange] using h
    exact Nat.le_of_lt_succ hr
  | op6XNN x nn | op7XNN x nn | op8XY0 x y | op8XY1 x y | op8XY2 x y | op8XY3 x y | op8XY4 x y | op8XY5 x y | op8XY6 x y
  | op8XY7 x y | op8XYE x y | opCXNN x nn | opDXYN x y n | opFX07 x | opFX0A x | opFX1E x =>
    simpa [mayChange, writesReg] using h
  | _ => simp [mayChange] at h

theorem setsIndex_of_mayChange (h : mayChange i s .i) :
    (∃ nnn, i = .opANNN nnn) ∨ ∃ x, i = .opFX1E x ∨ i = .opFX29 x ∨ i = .opFX55 x ∨ i = .opFX65 x := by
  cases i with
  | opANNN nnn | opFX1E x | opFX29 x | opFX55 x | opFX65 x => simp
  | _ => simp [mayChange] at h

theorem movesSp_of_mayChange (h : mayChange i s .sp) : i = .op00EE ∨ ∃ nnn, i = .op2NNN nnn := by
  cases i with
  | op00EE | op2NNN nnn => simp
  | _ => simp [mayChange] at h

theorem call_of_mayChange_stack {j : Fin 16} (h : mayChange i s (.stack j)) : ∃ nnn, i = .op2NNN nnn := by
  cases i with
  | op2NNN nnn => exact ⟨nnn, rfl⟩
  | _ => simp [mayChange] at h

theorem setsDelay_of_mayChange (h : mayChange i s .dt) : ∃ x, i = .opFX15 x := by
  cases i with
  | opFX15 x => exact ⟨x, rfl⟩
  | _ => simp [mayChange] at h

theorem setsSound_of_mayChange (h : mayChange i s .st) : ∃ x, i = .opFX18 x := by
  cases i with
  | opFX18 x => exact ⟨x, rfl⟩
  | _ => simp [mayChange] at h

theorem setsMode_of_mayChange (h : mayChange i s .ext) : i = .op00FE ∨ i = .op00FF := by
  cases i with
  | op00FE | op00FF => simp
  | _ => simp [mayChange] at h

theorem clears_or_draws_of_mayChange_dirty (h : mayChange i s .dirty) : i = .op00E0 ∨ ∃ x y n, i = .opDXYN x y n := by
  cases i with
  | op00E0 | opDXYN x y n => simp
  | _ => simp [mayChange] at h

theorem faults_of_mayChange (h : mayChange i s .fault) : i = .op00EE ∨ ∃ nnn, i = .op2NNN nnn := by
  cases i with
  | op00EE | op2NNN nnn => simp
  | _ => simp [mayChange] at h

/-- The parts no instruction writes: KEY, OPCODE, the outputs, the configuration, the script, the draw counter and the mark of a
failed load. -/
def neverChanged : Part → Prop
  | .key _ | .opcode | .beep | .diag | .cfg | .host | .draws | .loadFailed => True
  | .reg _ | .pc | .i | .sp | .stack _ | .dt | .st | .ext | .dirty | .fault | .mem _ | .cell _ => False

theorem not_mayChange_of_neverChanged {p : Part} (hp : neverChanged p) : ¬ mayChange i s p := by
  cases p with
  | key _ | opcode | beep | diag | cfg | host | draws | loadFailed => cases i <;> simp [mayChange]
  | _ => exact hp.elim

end

/-- Settles O49: the bytes an instruction may change are at the addresses it stores to. -/
theorem memoryChangesOnlyAtStores : Obligations.MemoryChangesOnlyAtStores :=
  fun _ _ _ h a ha => exec_same h (p := .mem a) fun hm => ha (mem_storeAddrs_of_mayChange hm)

/-- Settles O50: 00E0 and DXYN alone may change a cell. -/
theorem framebufferWriters : Obligations.FramebufferWriters :=
  fun _ _ _ p h hne => clears_or_draws_of_mayChange_cell (mayChange_of_ne h (p := .cell p) hne)

/-- Settles O51: the registers an instruction may change are the ones it may write. -/
theorem registerWriters : Obligations.RegisterWriters :=
  fun _ _ _ r h hne => writesReg_of_mayChange (mayChange_of_ne h (p := .reg r) hne)

/-- DIRTY is set, and never cleared, by an instruction that changes it (R33). -/
theorem dirty_of_exec_ne {i : Instr} {s t : State} (h : exec i s = .next t) (hne : t.dirty ≠ s.dirty) : t.dirty = true := by
  rcases clears_or_draws_of_mayChange_dirty (mayChange_of_ne h (p := .dirty) hne) with rfl | ⟨x, y, n, rfl⟩ <;> cases h <;> rfl

/-- Settles O52: each part that reads otherwise is one the instruction may change, and the parts no instruction may change read
the same. -/
theorem controlStateWriters : Obligations.ControlStateWriters := by
  intro i s t h
  have hsame {p : Part} (hp : neverChanged p) : p.same s t := exec_same h (not_mayChange_of_neverChanged hp)
  refine ⟨fun hne => setsIndex_of_mayChange (mayChange_of_ne h (p := .i) hne),
    fun hne => movesSp_of_mayChange (mayChange_of_ne h (p := .sp) hne), fun hne => ?stack,
    fun hne => setsDelay_of_mayChange (mayChange_of_ne h (p := .dt) hne),
    fun hne => setsSound_of_mayChange (mayChange_of_ne h (p := .st) hne),
    fun hne => setsMode_of_mayChange (mayChange_of_ne h (p := .ext) hne),
    fun hne => ⟨dirty_of_exec_ne h hne, clears_or_draws_of_mayChange_dirty (mayChange_of_ne h (p := .dirty) hne)⟩, ?key,
    hsame (p := .cfg) trivial, hsame (p := .opcode) trivial, hsame (p := .beep) trivial, hsame (p := .diag) trivial,
    hsame (p := .loadFailed) trivial⟩
  case stack =>
    obtain ⟨j, hj⟩ : ∃ j : Fin 16, t.stack[j] ≠ s.stack[j] := by
      by_contra hall
      exact hne (Vector.ext fun j hj => by_contra fun hjne => hall ⟨⟨j, hj⟩, hjne⟩)
    exact call_of_mayChange_stack (mayChange_of_ne h (p := .stack j) hj)
  case key => exact Vector.ext fun k hk => hsame (p := .key ⟨k, hk⟩) trivial

end Sys2Proof.Machine

/-! SUPPORT. Family other: every instruction completes, which of them fault, and the ways a step can go
(spec/30_encoding.md R70, R80; spec/60_exceptions.md R200 to R206, R222 to R225). -/

namespace Sys2Proof.Machine

/-! ### Every instruction completes; two fault -/

section

variable (s : State)

/-- 2NNN on a full stack raises StackOverflow (R201). -/
theorem exec_call_full (nnn : Addr) (h : s.sp.val = 16) : exec (.op2NNN nnn) s = .next (s.setFault .stackOverflow) := by
  obtain ⟨-, he⟩ | ⟨hlt, -⟩ := exec2NNN_cases s nnn
  · exact he
  · exact absurd h hlt.ne

/-- 2NNN below a full stack pushes its own address and jumps (R111). -/
theorem exec_call_push (nnn : Addr) (h : s.sp.val < 16) : exec (.op2NNN nnn) s =
    .next ((s.setStack (s.stack.set s.sp.val s.pc h) ⟨s.sp.val + 1, by omega⟩).setPc (zextAddr nnn)) := by
  obtain ⟨hsp, -⟩ | ⟨_, he⟩ := exec2NNN_cases s nnn
  · exact absurd (congrArg Fin.val hsp) h.ne
  · exact he

/-- 00EE on an empty stack raises StackUnderflow (R202). -/
theorem exec_return_empty (h : s.sp.val = 0) : exec .op00EE s = .next (s.setFault .stackUnderflow) := by
  obtain ⟨-, he⟩ | ⟨hne, -⟩ := exec00EE_cases s
  · exact he
  · exact absurd h hne

/-- 00EE above an empty stack pops and resumes after the call (R101). -/
theorem exec_return_pop (h : s.sp.val ≠ 0) : exec .op00EE s =
    .next ((s.setStack s.stack ⟨s.sp.val - 1, by omega⟩).setPc (s.stack[s.sp.val - 1]'(by omega) + 2#16)) := by
  obtain ⟨hsp, -⟩ | ⟨_, he⟩ := exec00EE_cases s
  · exact absurd (congrArg Fin.val hsp) h
  · exact he

/-- Every instruction answers a next state, from every state (R70). -/
theorem exec_next (i : Instr) : ∃ t, exec i s = .next t := by
  cases i with
  | op00EE => obtain ⟨-, he⟩ | ⟨_, he⟩ := exec00EE_cases s <;> exact ⟨_, he⟩
  | op2NNN nnn => obtain ⟨-, he⟩ | ⟨_, he⟩ := exec2NNN_cases s nnn <;> exact ⟨_, he⟩
  | opFX0A x => obtain ⟨-, he⟩ | ⟨_, -, -, he⟩ := execFX0A_cases s x <;> exact ⟨_, he⟩
  | _ => exact ⟨_, rfl⟩

end

section

variable {i : Instr} {s t : State}

/-- An instruction leaves FAULT alone, or is a call on a full stack or a return on an empty one, which change nothing but
FAULT (R200 to R203). -/
theorem exec_fault_cases (h : exec i s = .next t) : t.fault = s.fault ∨
    ((∃ nnn, i = .op2NNN nnn) ∧ s.sp = 16 ∧ t = s.setFault .stackOverflow) ∨
    (i = .op00EE ∧ s.sp = 0 ∧ t = s.setFault .stackUnderflow) := by
  by_cases hm : mayChange i s .fault
  · rcases faults_of_mayChange hm with rfl | ⟨nnn, rfl⟩
    · obtain ⟨hsp, he⟩ | ⟨_, he⟩ := exec00EE_cases s <;> cases he.symm.trans h
      · exact .inr (.inr ⟨rfl, hsp, rfl⟩)
      · exact .inl rfl
    · obtain ⟨hsp, he⟩ | ⟨_, he⟩ := exec2NNN_cases s nnn <;> cases he.symm.trans h
      · exact .inr (.inl ⟨⟨nnn, rfl⟩, hsp, rfl⟩)
      · exact .inl rfl
  · exact .inl (exec_same h hm)

end

/-- Settles O12: a fault that was not there before is one of the two cases; and in each of the two the fault is raised. -/
theorem onlyCallAndReturnFault : Obligations.OnlyCallAndReturnFault := by
  intro i s t h hf
  refine ⟨⟨fun ht => ?_, ?_⟩, ⟨fun ht => ?_, ?_⟩⟩
  · rcases exec_fault_cases h with he | ⟨hi, hsp, -⟩ | ⟨-, -, rfl⟩
    · cases hf.symm.trans (he.symm.trans ht)
    · exact ⟨hi, congrArg Fin.val hsp⟩
    · cases ht
  · rintro ⟨⟨nnn, rfl⟩, hsp⟩
    cases (exec_call_full s nnn hsp).symm.trans h
    rfl
  · rcases exec_fault_cases h with he | ⟨-, -, rfl⟩ | ⟨hi, hsp, -⟩
    · cases hf.symm.trans (he.symm.trans ht)
    · cases ht
    · exact ⟨hi, congrArg Fin.val hsp⟩
  · rintro ⟨rfl, hsp⟩
    cases (exec_return_empty s hsp).symm.trans h
    rfl

/-! ### The word of a cycle -/

section

variable {w : Word} {s : State}

theorem execWord_of_ok {i : Instr} (h : decode w = .ok i) : execWord w s = exec i s := by
  rw [execWord, h]

theorem execWord_of_error {r : Reject} (h : decode w = .error r) : execWord w s = .next (execUnknown w s) := by
  rw [execWord, h]

/-- Every word, known or not, answers a next state (R70, R80). -/
theorem execWord_next (w : Word) (s : State) : ∃ t, execWord w s = .next t := by
  cases hd : decode w with
  | ok i => exact (execWord_of_ok hd).symm ▸ exec_next s i
  | error r => exact ⟨_, execWord_of_error hd⟩

/-- The record of the outputs is no other part (R43). -/
theorem State.onlyChanges_setOutputs (s : State) (b : Bool) (d : Option Word) :
    OnlyChanges (fun p => p = .beep ∨ p = .diag) s (s.setOutputs b d) := by
  intro p hp
  cases p with
  | beep => exact absurd (.inl rfl) hp
  | diag => exact absurd (.inr rfl) hp
  | _ => rfl

/-- The fetch changes OPCODE and clears the record of the outputs (R70, R71). -/
theorem State.onlyChanges_fetched (s : State) :
    OnlyChanges (fun p => p = .beep ∨ p = .diag ∨ p = .opcode) s s.fetched := by
  intro p hp
  cases p with
  | beep => exact absurd (.inl rfl) hp
  | diag => exact absurd (.inr (.inl rfl)) hp
  | opcode => exact absurd (.inr (.inr rfl)) hp
  | _ => rfl

/-- An unknown word changes PC and the record of the outputs (R80). -/
theorem onlyChanges_execUnknown (w : Word) (s : State) :
    OnlyChanges (fun p => p = .pc ∨ p = .beep ∨ p = .diag) s (execUnknown w s) :=
  (s.onlyChanges_setOutputs _ _).fallThrough

end

/-! ### The end of a cycle -/

section

variable (s : State) (tick : Bool)

/-- The tick changes the timers and the beep (R222). -/
theorem State.onlyChanges_timerTick : OnlyChanges (fun p => p = .dt ∨ p = .st ∨ p = .beep) s s.timerTick := by
  intro p hp
  cases p with
  | dt => exact absurd (.inl rfl) hp
  | st => exact absurd (.inr (.inl rfl)) hp
  | beep => exact absurd (.inr (.inr rfl)) hp
  | _ => rfl

/-- The use of the inputs changes the script and the draw counter. -/
theorem State.onlyChanges_consumeInput : OnlyChanges (fun p => p = .host ∨ p = .draws) s s.consumeInput := by
  intro p hp
  rw [State.consumeInput_eq]
  cases p with
  | host => exact absurd (.inl rfl) hp
  | draws => exact absurd (.inr rfl) hp
  | _ => rfl

/-- A cycle ends with a tick, when it was asked for one and raised no fault, or without. -/
theorem State.endCycle_cases : (tick = true ∧ s.fault = .none ∧ s.endCycle tick = s.timerTick.consumeInput) ∨
    (¬ (tick = true ∧ s.fault = .none) ∧ s.endCycle tick = s.consumeInput) := by
  unfold State.endCycle
  split
  case isTrue h => exact .inl ⟨h.2, h.1, rfl⟩
  case isFalse h => exact .inr ⟨fun hh => h ⟨hh.2, hh.1⟩, rfl⟩

/-- The end of a cycle changes the timers, the beep and the use of the inputs. -/
theorem State.onlyChanges_endCycle : OnlyChanges
    (fun p => p = .dt ∨ p = .st ∨ p = .beep ∨ p = .host ∨ p = .draws) s (s.endCycle tick) := by
  obtain ⟨-, -, he⟩ | ⟨-, he⟩ := s.endCycle_cases tick <;> rw [he]
  · exact (s.onlyChanges_timerTick.andThen s.timerTick.onlyChanges_consumeInput).mono fun p hp => by tauto
  · exact s.onlyChanges_consumeInput.mono fun p hp => by tauto

/-- DT at the end of a cycle is one lower exactly when the tick runs (R222, R223). -/
theorem State.endCycle_dt_toNat : (s.endCycle tick).dt.toNat =
    if tick = true ∧ s.fault = .none then s.dt.toNat - 1 else s.dt.toNat := by
  obtain ⟨ht, hf, he⟩ | ⟨hn, he⟩ := s.endCycle_cases tick
  · rw [he, if_pos ⟨ht, hf⟩, State.consumeInput_dt, State.timerTick_dt, countDown_toNat]
  · rw [he, if_neg hn, State.consumeInput_dt]

/-- ST at the end of a cycle is one lower exactly when the tick runs (R222, R223). -/
theorem State.endCycle_st_toNat : (s.endCycle tick).st.toNat =
    if tick = true ∧ s.fault = .none then s.st.toNat - 1 else s.st.toNat := by
  obtain ⟨ht, hf, he⟩ | ⟨hn, he⟩ := s.endCycle_cases tick
  · rw [he, if_pos ⟨ht, hf⟩, State.consumeInput_st, State.timerTick_st, countDown_toNat]
  · rw [he, if_neg hn, State.consumeInput_st]

/-- The tick asserts the beep exactly when it finds ST = 1 (R225). -/
theorem State.timerTick_beep_iff : s.timerTick.beep = true ↔ s.st.toNat = 1 := by
  rw [State.timerTick_beep, beq_iff_eq, ← BitVec.toNat_inj]
  rfl

/-- A beep at the end of a cycle that had none comes of its tick (R225). -/
theorem State.endCycle_beep (hb : s.beep = false) :
    (s.endCycle tick).beep = true ↔ tick = true ∧ s.fault = .none ∧ s.st.toNat = 1 := by
  obtain ⟨ht, hf, he⟩ | ⟨hn, he⟩ := s.endCycle_cases tick
  · rw [he, State.consumeInput_beep, State.timerTick_beep_iff]
    tauto
  · rw [he, State.consumeInput_beep, hb]
    tauto

end

/-- Settles O46: each timer counts down by one and stops at 0. -/
theorem tickCountsBothTimersDown : Obligations.TickCountsBothTimersDown := by
  intro s
  refine ⟨?_, ?_, s.timerTick_beep_iff, s.onlyChanges_timerTick⟩
  · rw [State.timerTick_dt, countDown_toNat]
    split <;> omega
  · rw [State.timerTick_st, countDown_toNat]
    split <;> omega

/-! ### The ways a step can go, read backwards -/

/-- A cycle after a failed load has no meaning (R247; U2). -/
theorem step_refused {s : State} (h : s.coreNext = true) (hl : s.loadFailed = true) :
    step s = .refused .afterFailedLoad := by
  rw [step_cycle h, runCycle, if_pos hl]

/-- A step that completes is a host move, a halted cycle, or a cycle that fetches (R11, R70, R204). -/
theorem step_cases {s t : State} (h : step s = .next t) :
    (∃ m rest, s.host = .move m :: rest ∧ t = hostMove m (s.setHost rest s.draws)) ∨
    (s.coreNext = true ∧ s.fault ≠ .none ∧ t = (s.setOutputs false none).consumeInput) ∨
    (s.Ready ∧ ∃ u, execWord s.fetchWord s.fetched = .next u ∧ t = u.endCycle s.tickIn) := by
  rcases coreNext_cases s with ⟨m, rest, hm⟩ | hc
  · cases (step_move hm).symm.trans h
    exact .inl ⟨m, rest, hm, rfl⟩
  · cases hl : s.loadFailed with
    | true => cases (step_refused hc hl).symm.trans h
    | false =>
      by_cases hf : s.fault = .none
      · obtain ⟨u, hu⟩ := execWord_next s.fetchWord s.fetched
        have hready : s.Ready := ⟨hc, hl, hf⟩
        cases (step_ready hready hu).symm.trans h
        exact .inr (.inr ⟨hready, u, hu, rfl⟩)
      · cases (step_halted hc hl hf).symm.trans h
        exact .inr (.inl ⟨hc, hf, rfl⟩)

/-- Settles O10: the refused cycle, and in every other state one of the three ways a step completes. -/
theorem everyStepCompletes : Obligations.EveryStepCompletes := by
  intro s
  refine ⟨fun ⟨hc, hl⟩ => step_refused hc hl, fun hn => ?_⟩
  rcases coreNext_cases s with ⟨m, rest, hm⟩ | hc
  · exact ⟨_, step_move hm⟩
  · have hl : s.loadFailed = false := Bool.eq_false_iff.mpr fun hl => hn ⟨hc, hl⟩
    by_cases hf : s.fault = .none
    · obtain ⟨u, hu⟩ := execWord_next s.fetchWord s.fetched
      exact ⟨_, step_ready ⟨hc, hl, hf⟩ hu⟩
    · exact ⟨_, step_halted hc hl hf⟩

/-- Settles O7: the cycle that fetches runs the decoded instruction on the fetched state, then ends. -/
theorem stepRunsDecodedInstruction : Obligations.StepRunsDecodedInstruction := by
  intro s i hready hd
  obtain ⟨t, ht⟩ := exec_next s.fetched i
  exact ⟨t, ht, step_ready hready ((execWord_of_ok hd).trans ht)⟩

/-- Settles O8: the fetch, the unknown word's no-op, the end of the cycle. -/
theorem unknownOpcodeIsDiagnosedNoOp : Obligations.UnknownOpcodeIsDiagnosedNoOp := by
  intro s r hready hd
  have hf : (execUnknown s.fetchWord s.fetched).fault = .none := hready.notHalted
  have hend := (execUnknown s.fetchWord s.fetched).onlyChanges_endCycle s.tickIn
  refine ⟨_, step_ready hready (execWord_of_error hd), hend .diag (by simp), hend .opcode (by simp), ?_, ?_, ?_, ?_,
    ((s.onlyChanges_fetched.andThen (onlyChanges_execUnknown _ _)).andThen hend).mono fun p hp => by tauto⟩
  · exact (congrArg BitVec.toNat (hend .pc (by simp))).trans (s.advance_pc_toNat 2)
  · rw [State.endCycle_dt_toNat]
    simp only [hf, and_true]
    rfl
  · rw [State.endCycle_st_toNat]
    simp only [hf, and_true]
    rfl
  · rw [State.endCycle_beep _ _ rfl]
    simp only [hf, true_and]
    rfl

/-- Settles O11: in either case the instruction is one write of FAULT on the fetched state, and no tick runs after it. -/
theorem faultEntryIsPrecise : Obligations.FaultEntryIsPrecise := by
  intro s i c hready hd hcase
  have hexec : exec i s.fetched = .next (s.fetched.setFault c) := by
    rcases hcase with ⟨⟨nnn, rfl⟩, hsp, rfl⟩ | ⟨rfl, hsp, rfl⟩
    · exact exec_call_full s.fetched nnn hsp
    · exact exec_return_empty s.fetched hsp
  have hc : c ≠ .none := by
    rcases hcase with ⟨-, -, rfl⟩ | ⟨-, -, rfl⟩ <;> decide
  have hstep : step s = .next (s.fetched.setFault c).consumeInput := by
    rw [step_ready hready ((execWord_of_ok hd).trans hexec), State.endCycle_fault _ _ hc]
  have hframe := (s.onlyChanges_fetched.andThen (s.fetched.onlyChanges_setFault c)).andThen
    (State.onlyChanges_consumeInput _)
  refine ⟨_, hstep, by simp, by simp, by simp, by simp, ?_, hframe.mono fun p hp => by tauto⟩
  rcases hcase with ⟨-, -, rfl⟩ | ⟨-, -, rfl⟩ <;> simp [State.faultOut, faultNumber]

/-! ### The timers over a cycle -/

section

variable {s u : State}

theorem dtBeforeTick_of_write {x : RegNo} (h : decode s.fetchWord = .ok (.opFX15 x)) : s.dtBeforeTick = s.reg x := by
  rw [State.dtBeforeTick, h]

theorem dtBeforeTick_of_other (h : ∀ x, decode s.fetchWord ≠ .ok (.opFX15 x)) : s.dtBeforeTick = s.dt := by
  unfold State.dtBeforeTick
  split
  case h_1 x hx => exact absurd hx (h x)
  case h_2 => rfl

theorem stBeforeTick_of_write {x : RegNo} (h : decode s.fetchWord = .ok (.opFX18 x)) : s.stBeforeTick = s.reg x := by
  rw [State.stBeforeTick, h]

theorem stBeforeTick_of_other (h : ∀ x, decode s.fetchWord ≠ .ok (.opFX18 x)) : s.stBeforeTick = s.st := by
  unfold State.stBeforeTick
  split
  case h_1 x hx => exact absurd hx (h x)
  case h_2 => rfl

/-- The timers as the instruction of the cycle leaves them are the timers as the tick finds them (R183, R184, R223). -/
theorem execWord_timers (h : execWord s.fetchWord s.fetched = .next u) :
    u.dt = s.dtBeforeTick ∧ u.st = s.stBeforeTick := by
  cases hd : decode s.fetchWord with
  | error r =>
    cases (execWord_of_error hd).symm.trans h
    rw [dtBeforeTick_of_other (by simp [hd]), stBeforeTick_of_other (by simp [hd])]
    exact ⟨rfl, rfl⟩
  | ok i =>
    have hexec := (execWord_of_ok hd).symm.trans h
    constructor
    · by_cases hi : ∃ x, i = .opFX15 x
      · obtain ⟨x, rfl⟩ := hi
        cases hexec
        exact (dtBeforeTick_of_write hd).symm
      · rw [dtBeforeTick_of_other fun x hx => hi ⟨x, Except.ok.inj (hd.symm.trans hx)⟩]
        exact exec_same hexec (p := .dt) fun hm => hi (setsDelay_of_mayChange hm)
    · by_cases hi : ∃ x, i = .opFX18 x
      · obtain ⟨x, rfl⟩ := hi
        cases hexec
        exact (stBeforeTick_of_write hd).symm
      · rw [stBeforeTick_of_other fun x hx => hi ⟨x, Except.ok.inj (hd.symm.trans hx)⟩]
        exact exec_same hexec (p := .st) fun hm => hi (setsSound_of_mayChange hm)

/-- Neither an instruction nor an unknown word asserts the beep (R225). -/
theorem execWord_beep (h : execWord s.fetchWord s.fetched = .next u) : u.beep = false := by
  cases hd : decode s.fetchWord with
  | error r =>
    cases (execWord_of_error hd).symm.trans h
    rfl
  | ok i => exact exec_same ((execWord_of_ok hd).symm.trans h) (p := .beep) (not_mayChange_of_neverChanged trivial)

/-- A step from a ready state is the fetched word's effect and the end of the cycle. -/
theorem step_ready_cases {t : State} (hready : s.Ready) (h : step s = .next t) :
    ∃ u, execWord s.fetchWord s.fetched = .next u ∧ t = u.endCycle s.tickIn := by
  obtain ⟨u, hu⟩ := execWord_next s.fetchWord s.fetched
  exact ⟨u, hu, Host.Outcome.next.inj (h.symm.trans (step_ready hready hu))⟩

end

/-- The end of a cycle keeps FAULT. -/
theorem State.endCycle_fault_eq (s : State) (tick : Bool) : (s.endCycle tick).fault = s.fault :=
  s.onlyChanges_endCycle tick .fault (by simp)

/-- Settles O47: the end of the cycle counts down the timers the instruction left. -/
theorem cycleTicksAfterTheInstruction : Obligations.CycleTicksAfterTheInstruction := by
  intro s t hready h
  obtain ⟨u, hu, rfl⟩ := step_ready_cases hready h
  obtain ⟨hdt, hst⟩ := execWord_timers hu
  rw [State.endCycle_fault_eq, State.endCycle_dt_toNat, State.endCycle_st_toNat, hdt, hst]
  exact ⟨rfl, rfl⟩

/-- Settles O48: the end of the cycle is the only source of a beep. -/
theorem beepExactlyWhenTickLeavesOne : Obligations.BeepExactlyWhenTickLeavesOne := by
  intro s t hready h
  obtain ⟨u, hu, rfl⟩ := step_ready_cases hready h
  rw [State.endCycle_fault_eq, State.endCycle_beep _ _ (execWord_beep hu), (execWord_timers hu).2]

/-- States that agree on PC and on every byte fetch the same word. -/
theorem fetchWord_congr {s t : State} (hpc : t.pc = s.pc) (hmem : ∀ a, t.byteAt a = s.byteAt a) :
    t.fetchWord = s.fetchWord := by
  simp only [State.fetchWord, State.memRead, hpc, hmem]

/-- Settles O58: the jump writes PC with the value it has, so the cycle leaves what the fetch and the end of the cycle leave. -/
theorem selfJumpIsTheEnd : Obligations.SelfJumpIsTheEnd := by
  rintro s hready ⟨nnn, hd, hpc⟩
  have hexec : execWord s.fetchWord s.fetched = .next s.fetched := by
    rw [execWord_of_ok hd]
    show Host.Outcome.next (s.fetched.setPc (zextAddr nnn)) = .next s.fetched
    rw [hpc]
    rfl
  have hframe := s.onlyChanges_fetched.andThen (s.fetched.onlyChanges_endCycle s.tickIn)
  have hword : (s.fetched.endCycle s.tickIn).fetchWord = s.fetchWord :=
    fetchWord_congr (hframe .pc (by simp)) fun a => hframe (.mem a) (by simp)
  refine ⟨_, step_ready hready hexec, ⟨nnn, hword ▸ hd, hpc.trans (hframe .pc (by simp)).symm⟩, ?_,
    hframe.mono fun p hp => by tauto⟩
  rw [State.endCycle_fault_eq]
  exact hready.notHalted

end Sys2Proof.Machine

/-! SUPPORT. Family other: the host's moves, the invariant every step keeps, and the reserved range over a run
(spec/60_exceptions.md R203 to R206, R227, R229; spec/70_reset_and_hazards.md R247, R251). -/

namespace Sys2Proof.Machine

/-! ### The host's moves -/

section

variable (s : State)

/-- An image that fits is copied over the reset state (R247). -/
theorem State.loadProgram_of_le {image : List Byte} (h : image.length ≤ 3584) :
    s.loadProgram image = s.hostReset.setMem (copyImage s.cfg.font [] 0 image) :=
  if_neg (Nat.not_lt.mpr h)

/-- An image that does not fit marks the load as failed (R207, R247). -/
theorem State.loadProgram_of_lt {image : List Byte} (h : 3584 < image.length) :
    s.loadProgram image = s.setLoadFailed true :=
  if_pos h

/-- MEM after an image that fits: the image from 0x200 up, the reset contents elsewhere (R247). -/
theorem State.byteAt_loadProgram {image : List Byte} (h : image.length ≤ 3584) (a : Nat) :
    (s.loadProgram image).byteAt a = if hin : 0x200 ≤ a ∧ a < 0x200 + image.length then image[a - 0x200]'(by omega)
      else Memory.background s.cfg.font a := by
  rw [State.loadProgram_of_le s h]
  exact read_copyImage s.cfg.font image 0 a

/-- No host move changes the configuration (R43). -/
theorem hostMove_cfg (m : HostMove) : (hostMove m s).cfg = s.cfg := by
  cases m with
  | loadProgram image => rcases Nat.lt_or_ge 3584 image.length with h | h <;>
      simp [hostMove, State.loadProgram_of_le, State.loadProgram_of_lt, h]
  | _ => rfl

/-- No host move touches the script: the step that takes the move has used it up. -/
theorem hostMove_host (m : HostMove) : (hostMove m s).host = s.host := by
  cases m with
  | loadProgram image => rcases Nat.lt_or_ge 3584 image.length with h | h <;>
      simp [hostMove, State.loadProgram_of_le, State.loadProgram_of_lt, h]
  | _ => rfl

/-- A new script, with the draw counter as it was, is no other part. -/
theorem State.onlyChanges_setHost_draws (host : List HostEvent) :
    OnlyChanges (fun p => p = .host) s (s.setHost host s.draws) := by
  intro p hp
  cases p with
  | host => exact absurd rfl hp
  | _ => rfl

/-- A write of one key changes no other part (R227). -/
theorem State.onlyChanges_setKey (k : KeyNo) (b : Bool) : OnlyChanges (fun p => p = .key k) s (s.setKey k b) := by
  intro p hp
  cases p with
  | key j =>
    have hj : k.val ≠ j.val := fun h => hp (congrArg Part.key (Fin.ext h.symm))
    exact Vector.getElem_set_ne k.isLt j.isLt hj
  | _ => rfl

end

/-- Settles O15: an image that fits is read back from the copy, everything else from the reset state; one that does not fit
leaves the mark that refuses a cycle. -/
theorem loadProgramCopiesImage : Obligations.LoadProgramCopiesImage := by
  intro s image rest hmove
  refine ⟨_, step_move hmove, hostMove_host _ _, hostMove_cfg _ _, decide_eq_true_iff, fun hle => ?fits, fun hlt hc => ?fails⟩
  case fits =>
    have hbyte := (s.setHost rest s.draws).byteAt_loadProgram hle
    refine ⟨?reset, fun j hj => ?image, fun a ha => ?font, fun a ha ha' hout => ?zeros⟩
    case reset =>
      rw [hostMove, State.loadProgram_of_le _ hle]
      exact { (s.setHost rest s.draws).hostReset_resetButMem with }
    case image =>
      refine (hbyte (0x200 + j)).trans ((dif_pos (by omega)).trans ?_)
      simp
    case font =>
      rw [hostMove_cfg]
      exact (hbyte a).trans ((dif_neg (by omega)).trans (Memory.background_of_lt _ ha))
    case zeros => exact (hbyte a).trans ((dif_neg (by omega)).trans (Memory.background_of_le _ ha))
  case fails =>
    rw [hostMove, State.loadProgram_of_lt _ hlt] at hc ⊢
    exact step_refused hc rfl

/-- Settles O16: the move is one write of one key, on the state whose script has used it up. -/
theorem keyWriteSetsOneKey : Obligations.KeyWriteSetsOneKey := by
  intro s k b rest hmove
  refine ⟨_, step_move hmove, Vector.getElem_set_self k.isLt, rfl,
    (s.onlyChanges_setHost_draws rest).andThen (State.onlyChanges_setKey _ k b)⟩

/-- Settles O17: the move is one write of DIRTY, on the state whose script has used it up. -/
theorem frameQueryClearsDirty : Obligations.FrameQueryClearsDirty := by
  intro s rest hmove
  exact ⟨_, step_move hmove, rfl, rfl, rfl,
    (s.onlyChanges_setHost_draws rest).andThen (State.onlyChanges_setDirty _ false)⟩

/-- Settles O9: a halted cycle clears the outputs and uses up its inputs; of the host's moves only the two that reset change
FAULT. -/
theorem haltedCoreChangesNothing : Obligations.HaltedCoreChangesNothing := by
  refine fun s hf => ⟨fun hc hl => ?cycle, fun t h hne => ?exit⟩
  case cycle =>
    refine ⟨_, step_halted hc hl hf, State.consumeInput_beep _, State.consumeInput_diag _, ?_⟩
    exact ((s.onlyChanges_setOutputs false none).andThen (State.onlyChanges_consumeInput _)).mono fun p hp => by tauto
  case exit =>
    rcases step_cases h with ⟨m, rest, hm, rfl⟩ | ⟨-, -, rfl⟩ | ⟨hready, -⟩
    · cases m with
      | reset => exact ⟨rfl, rest, .inl hm⟩
      | loadProgram image =>
        rcases Nat.lt_or_ge 3584 image.length with hlen | hlen
        · rw [hostMove, State.loadProgram_of_lt _ hlen] at hne
          exact absurd rfl hne
        · rw [hostMove, State.loadProgram_of_le _ hlen]
          exact ⟨rfl, rest, .inr ⟨image, hlen, hm⟩⟩
      | keyWr k b => exact absurd rfl hne
      | frameQuery => exact absurd rfl hne
    · exact absurd (State.consumeInput_fault _) hne
    · exact absurd hready.notHalted hf

/-! ### The invariant -/

/-- An instruction keeps the canonical form of memory: FX33 and FX55 write inside the 4096 addresses, the others write none. -/
theorem exec_wf {i : Instr} {s t : State} (h : exec i s = .next t) (hw : Memory.wf s.cfg.font s.mem = true) :
    Memory.wf t.cfg.font t.mem = true := by
  have hcfg : t.cfg = s.cfg := exec_same h (p := .cfg) (not_mayChange_of_neverChanged trivial)
  rw [hcfg]
  cases i with
  | opFX33 x => cases h; exact s.wf_memWriteList s.i 0 _ hw
  | opFX55 x => cases h; exact s.wf_memWriteList s.i 0 _ hw
  | opFX65 x => cases h; exact (congrArg (Memory.wf s.cfg.font) (s.setRegsFrom_mem 0 _)).trans hw
  | op00EE => obtain ⟨-, he⟩ | ⟨_, he⟩ := exec00EE_cases s <;> cases he.symm.trans h <;> exact hw
  | op2NNN nnn => obtain ⟨-, he⟩ | ⟨_, he⟩ := exec2NNN_cases s nnn <;> cases he.symm.trans h <;> exact hw
  | opFX0A x => obtain ⟨-, he⟩ | ⟨k, -, -, he⟩ := execFX0A_cases s x <;> cases he.symm.trans h <;> exact hw
  | _ => cases h; exact hw

section

variable {s u : State}

/-- A state with canonical memory that runs and asserts no output has the invariant. -/
theorem State.inv_of_quiet (hw : Memory.wf s.cfg.font s.mem = true) (hf : s.fault = .none) (hb : s.beep = false)
    (hd : s.diag = none) : s.Inv where
  memCanonical := hw
  haltedQuiet h := absurd hf h
  haltedSite h := absurd hf h
  overflowSite h := nomatch hf.symm.trans h
  underflowSite h := nomatch hf.symm.trans h
  diagWord _ h := nomatch hd.symm.trans h
  beepSilences h := nomatch hb.symm.trans h

/-- The invariant says nothing of the script and the draw counter. -/
theorem State.Inv.setHost (h : s.Inv) (host : List HostEvent) (draws : Nat) : (s.setHost host draws).Inv :=
  { h with }

theorem State.Inv.consumeInput (h : s.Inv) : s.consumeInput.Inv :=
  s.consumeInput_eq ▸ h.setHost _ _

/-- A halted cycle keeps the invariant: the outputs were quiet before it. -/
theorem State.Inv.setOutputs_quiet (h : s.Inv) : (s.setOutputs false none).Inv :=
  { h with
    haltedQuiet := fun _ => ⟨rfl, rfl⟩
    diagWord := fun _ hd => nomatch hd
    beepSilences := fun hb => nomatch hb }

/-- The tick keeps the invariant of a running core: a beep comes with ST = 1, which it counts down to 0 (R222, R225). -/
theorem State.Inv.timerTick (h : s.Inv) (hf : s.fault = .none) : s.timerTick.Inv :=
  { h with
    haltedQuiet := fun hn => absurd hf hn
    beepSilences := fun hb => by
      have hst : s.st = 0x01#8 := beq_iff_eq.mp hb
      rw [State.timerTick_st, hst]
      rfl }

theorem State.Inv.endCycle (h : s.Inv) (tick : Bool) : (s.endCycle tick).Inv := by
  obtain ⟨-, hf, he⟩ | ⟨-, he⟩ := s.endCycle_cases tick <;> rw [he]
  · exact (h.timerTick hf).consumeInput
  · exact h.consumeInput

/-- The host's moves keep the invariant. -/
theorem State.Inv.hostMove (h : s.Inv) (m : HostMove) : (hostMove m s).Inv := by
  cases m with
  | reset => exact State.inv_of_quiet rfl rfl rfl rfl
  | loadProgram image =>
    rcases Nat.lt_or_ge 3584 image.length with hlen | hlen
    · rw [Machine.hostMove, State.loadProgram_of_lt _ hlen]
      exact { h with }
    · rw [Machine.hostMove, State.loadProgram_of_le _ hlen]
      exact State.inv_of_quiet (wf_copyImage s.cfg.font image 0 (by simp only [progBase, memSize]; omega)) rfl rfl rfl
  | keyWr k b => exact { h with }
  | frameQuery => exact { h with }

/-- An unknown word is on `diag`, in OPCODE, and does not decode (R206). -/
theorem inv_execUnknown {r : Reject} (hw : Memory.wf s.cfg.font s.mem = true) (hf : s.fault = .none)
    (hd : decode s.fetchWord = .error r) : (execUnknown s.fetchWord s.fetched).Inv where
  memCanonical := hw
  haltedQuiet h := absurd hf h
  haltedSite h := absurd hf h
  overflowSite h := nomatch hf.symm.trans h
  underflowSite h := nomatch hf.symm.trans h
  diagWord w h := by
    cases h
    exact ⟨rfl, hd.trans (congrArg _ (decode_error hd))⟩
  beepSilences h := nomatch h

/-- A fault entry: FAULT, with the word of the faulting instruction in OPCODE and at PC (R203). -/
theorem inv_setFault {c : FaultCode} (hw : Memory.wf s.cfg.font s.mem = true)
    (hover : c = .stackOverflow → s.sp = 16 ∧ ∃ nnn, decode s.fetchWord = .ok (.op2NNN nnn))
    (hunder : c = .stackUnderflow → s.sp = 0 ∧ decode s.fetchWord = .ok .op00EE) : (s.fetched.setFault c).Inv where
  memCanonical := hw
  haltedQuiet _ := ⟨rfl, rfl⟩
  haltedSite _ := rfl
  overflowSite := hover
  underflowSite := hunder
  diagWord _ h := nomatch h
  beepSilences h := nomatch h

/-- The fetched word leaves the invariant: it is unknown, or runs on quietly, or faults. -/
theorem inv_execWord (h : s.Inv) (hf : s.fault = .none) (hu : execWord s.fetchWord s.fetched = .next u) : u.Inv := by
  cases hd : decode s.fetchWord with
  | error r =>
    cases (execWord_of_error hd).symm.trans hu
    exact inv_execUnknown h.memCanonical hf hd
  | ok i =>
    have hexec := (execWord_of_ok hd).symm.trans hu
    rcases exec_fault_cases hexec with hfault | ⟨⟨nnn, rfl⟩, hsp, rfl⟩ | ⟨rfl, hsp, rfl⟩
    · exact State.inv_of_quiet (exec_wf hexec h.memCanonical) (hfault.trans hf) (execWord_beep hu)
        (exec_same hexec (p := .diag) (not_mayChange_of_neverChanged trivial))
    · exact inv_setFault h.memCanonical (fun _ => ⟨hsp, nnn, hd⟩) (fun hc => nomatch hc)
    · exact inv_setFault h.memCanonical (fun hc => nomatch hc) (fun _ => ⟨hsp, hd⟩)

end

/-- Settles O55: a host move, a halted cycle, and a cycle that fetches each keep the invariant. -/
theorem stepKeepsInvariant : Obligations.StepKeepsInvariant := by
  intro s t hinv h
  rcases step_cases h with ⟨m, rest, -, rfl⟩ | ⟨-, -, rfl⟩ | ⟨hready, u, hu, rfl⟩
  · exact (hinv.setHost rest s.draws).hostMove m
  · exact hinv.setOutputs_quiet.consumeInput
  · exact (inv_execWord hinv hready.notHalted hu).endCycle s.tickIn

/-- Settles O56: after reset the core runs, asserts no output and lists no byte. -/
theorem resetHasInvariant : Obligations.ResetHasInvariant :=
  State.inv_of_quiet (Memory.wf_nil _) rfl rfl rfl

/-! ### The reserved range over a run -/

/-- The bytes below PROG_BASE read as reset left them under `font`: the font and zeros (R251). -/
def State.ReservedIsReset (s : State) (font : Vector Byte 80) : Prop :=
  ∀ a < 0x200, s.byteAt a = Memory.background font a

section

variable {s t u : State}

theorem execWord_cfg (h : execWord s.fetchWord s.fetched = .next u) : u.cfg = s.cfg := by
  cases hd : decode s.fetchWord with
  | error r =>
    cases (execWord_of_error hd).symm.trans h
    rfl
  | ok i =>
    exact exec_same ((execWord_of_ok hd).symm.trans h) (p := .cfg) (not_mayChange_of_neverChanged trivial)

/-- Where every store of the cycle is in program space the fetched word leaves the bytes below it (R53). -/
theorem execWord_byteAt_of_lt (hstores : s.storesInProgram) (h : execWord s.fetchWord s.fetched = .next u) {a : Nat}
    (ha : a < 0x200) : u.byteAt a = s.byteAt a := by
  cases hd : decode s.fetchWord with
  | error r =>
    cases (execWord_of_error hd).symm.trans h
    rfl
  | ok i =>
    refine memoryChangesOnlyAtStores i s.fetched u ((execWord_of_ok hd).symm.trans h) a fun hmem => ?_
    have hstored : a ∈ storeAddrs i s := by cases i <;> exact hmem
    exact absurd (hstores i hd a hstored) (Nat.not_le.mpr ha)

theorem reservedIsReset_hostMove (h : s.ReservedIsReset s.cfg.font) (m : HostMove) :
    (hostMove m s).ReservedIsReset s.cfg.font := by
  intro a ha
  cases m with
  | reset => exact State.byteAt_of_mem_nil s.hostReset_mem a
  | loadProgram image =>
    rcases Nat.lt_or_ge 3584 image.length with hlen | hlen
    · rw [hostMove, State.loadProgram_of_lt _ hlen]
      exact h a ha
    · exact (s.byteAt_loadProgram hlen a).trans (dif_neg (by omega))
  | keyWr k b => exact h a ha
  | frameQuery => exact h a ha

/-- A step that stores in program space keeps the configuration and the reserved range. -/
theorem reservedIsReset_step (h : s.ReservedIsReset s.cfg.font) (hstores : s.storesInProgram) (ht : step s = .next t) :
    t.cfg = s.cfg ∧ t.ReservedIsReset s.cfg.font := by
  rcases step_cases ht with ⟨m, rest, -, rfl⟩ | ⟨-, -, rfl⟩ | ⟨-, u, hu, rfl⟩
  · exact ⟨hostMove_cfg _ m, reservedIsReset_hostMove (s := s.setHost rest s.draws) h m⟩
  · exact ⟨State.consumeInput_cfg _, fun a ha => (State.byteAt_consumeInput _ a).trans (h a ha)⟩
  · have hend := u.onlyChanges_endCycle s.tickIn
    exact ⟨(hend .cfg (by simp)).trans (execWord_cfg hu),
      fun a ha => (hend (.mem a) (by simp)).trans ((execWord_byteAt_of_lt hstores hu ha).trans (h a ha))⟩

end

/-- Settles O57, by induction on the length of the run. -/
theorem reservedRangeSurvivesSafeRun : Obligations.ReservedRangeSurvivesSafeRun := by
  intro k
  induction k with
  | zero => exact fun s h _ => ⟨s, rfl, h⟩
  | succ k ih =>
    rintro s h ⟨-, hstores, t, ht, hrun⟩
    obtain ⟨hcfg, hreserved⟩ := reservedIsReset_step h hstores ht
    obtain ⟨u, hu, hu'⟩ := ih t (hcfg.symm ▸ hreserved) hrun
    exact ⟨u, (run_core_succ ht).trans hu, hcfg ▸ hu'⟩

end Sys2Proof.Machine

/-! SUPPORT. Family other: the screen, stack and mode instructions, the register skips, the arithmetic without a carry, the index
and the random byte, the keys (spec/40_family0_screen_return_mode.md to spec/47_family_f.md). -/

namespace Sys2Proof.Machine

/-! ### Family 0 and the stack -/

/-- Settles O18: one write of the framebuffer and one of DIRTY. -/
theorem clearScreenClearsEveryCell : Obligations.ClearScreenClearsEveryCell :=
  ⟨decodesAs_op00E0, fun s => ⟨_, rfl, pixelOf_clearedFrame, rfl, s.advance_pc_toNat 2,
    exec_onlyChanges (i := .op00E0) rfl⟩⟩

/-- Settles O19: a pop above depth 0, one write of FAULT at it. -/
theorem returnPopsOrUnderflows : Obligations.ReturnPopsOrUnderflows := by
  refine ⟨decodesAs_op00EE, fun s => ⟨fun hsp => ?_, fun hsp => ?_⟩⟩
  · exact ⟨_, exec_return_pop s hsp, rfl, add_two_toNat _,
      (s.onlyChanges_setStack_sp _).andThen (State.onlyChanges_setPc _ _)⟩
  · exact ⟨_, exec_return_empty s hsp, rfl, s.onlyChanges_setFault _⟩

/-- Settles O20: one write of EXT each. -/
theorem modeSwitchWritesExtOnly : Obligations.ModeSwitchWritesExtOnly :=
  ⟨decodesAs_op00FE, decodesAs_op00FF, fun s =>
    ⟨⟨_, rfl, rfl, s.advance_pc_toNat 2, exec_onlyChanges (i := .op00FE) rfl⟩,
      ⟨_, rfl, rfl, s.advance_pc_toNat 2, exec_onlyChanges (i := .op00FF) rfl⟩⟩⟩

/-- The frame of a push and a jump: PC, SP and the entry pushed (R29, R111). -/
theorem State.onlyChanges_push_setPc (s : State) (h : s.sp.val < 16) (w pc : Word) (sp : Fin 17) :
    OnlyChanges (fun p => p = .pc ∨ p = .sp ∨ p = .stack ⟨s.sp.val, h⟩) s
      ((s.setStack (s.stack.set s.sp.val w h) sp).setPc pc) :=
  (s.onlyChanges_setStack_set ⟨s.sp.val, h⟩ w sp).andThen (State.onlyChanges_setPc _ pc)

/-- Settles O22: a push of PC below depth 16, one write of FAULT at it. -/
theorem callPushesOrOverflows : Obligations.CallPushesOrOverflows := by
  refine ⟨decodesAs_op2NNN, fun s nnn => ⟨fun hsp => ?_, fun hsp => ?_⟩⟩
  · exact ⟨_, exec_call_push s nnn hsp, Vector.getElem_set_self hsp, rfl, zextAddr_toNat nnn,
      s.onlyChanges_push_setPc hsp _ _ _⟩
  · exact ⟨_, exec_call_full s nnn hsp, rfl, s.onlyChanges_setFault _⟩

/-- The state a call below depth 16, and a return at `pc` after it, leave: the entry pushed is the entry popped (R101, R111). -/
def State.calledAndReturned (s : State) (h : s.sp.val < 16) : State :=
  (s.setStack (s.stack.set s.sp.val s.pc h) s.sp).setPc (s.pc + 2#16)

theorem exec_return_of_call (s : State) (nnn : Addr) (pc : Word) (h : s.sp.val < 16) :
    exec .op00EE (((s.setStack (s.stack.set s.sp.val s.pc h) ⟨s.sp.val + 1, by omega⟩).setPc (zextAddr nnn)).setPc pc) =
      .next (s.calledAndReturned h) := by
  have hentry : (s.stack.set s.sp.val s.pc h)[s.sp.val] = s.pc := Vector.getElem_set_self h
  exact (exec_return_pop _ (Nat.succ_ne_zero s.sp.val)).trans (congrArg (fun w : Word =>
    Host.Outcome.next ((s.setStack (s.stack.set s.sp.val s.pc h) s.sp).setPc (w + 2#16))) hentry)

/-- Settles O23: the entry the call pushes at SP is the entry the return pops. -/
theorem returnResumesAfterCall : Obligations.ReturnResumesAfterCall := by
  intro s nnn pc hsp
  refine ⟨_, _, exec_call_push s nnn hsp, exec_return_of_call s nnn pc hsp, add_two_toNat s.pc, rfl, ?_⟩
  intro p hp
  cases p with
  | pc => exact absurd (.inl rfl) hp
  | stack j =>
    have hj : s.sp.val ≠ j.val := fun h => hp (.inr ⟨j, rfl, h.symm⟩)
    exact Vector.getElem_set_ne hsp j.isLt hj
  | _ => rfl

/-! ### Skips -/

/-- Settles O25: 5XY0 skips on the test `V[X] == V[Y]` and 9XY0 on `V[X] != V[Y]`, each read as a test of numbers. -/
theorem registerSkips : Obligations.RegisterSkips := by
  refine ⟨decodesAs_op5XY0, decodesAs_op9XY0, fun s x y => ?_⟩
  have heq : (s.reg x == s.reg y) = true ↔ (s.reg x).toNat = (s.reg y).toNat :=
    beq_iff_eq.trans BitVec.toNat_inj.symm
  have hne : (s.reg x != s.reg y) = true ↔ ¬ (s.reg x).toNat = (s.reg y).toNat :=
    bne_iff_ne.trans (not_congr BitVec.toNat_inj.symm)
  exact ⟨⟨_, rfl, s.skipIf_pc_toNat_of_iff heq, s.onlyChanges_skipIf _⟩,
    ⟨_, rfl, s.skipIf_pc_toNat_of_iff_not hne, s.onlyChanges_skipIf _⟩⟩

/-- Settles O37: both skips test the key whose number is V[X] modulo 16. -/
theorem keySkips : Obligations.KeySkips := by
  refine ⟨decodesAs_opEX9E, decodesAs_opEXA1, fun s x => ?_⟩
  have hkey : s.key[keyNo (s.reg x)] = s.key[(s.reg x).toNat % 16]'(Nat.mod_lt _ (by decide)) := by
    simp
  have hdown := Bool.eq_iff_iff.mp hkey
  have hup : (!s.key[keyNo (s.reg x)]) = true ↔ ¬ s.key[(s.reg x).toNat % 16]'(Nat.mod_lt _ (by decide)) = true := by
    simp [hkey]
  exact ⟨⟨_, rfl, s.skipIf_pc_toNat_of_iff hdown, s.onlyChanges_skipIf _⟩,
    ⟨_, rfl, s.skipIf_pc_toNat_of_iff_not hup, s.onlyChanges_skipIf _⟩⟩

/-! ### Register arithmetic -/

/-- One write of V[X] and the fall-through: the value, PC and the frame (R22, R24). -/
theorem State.setReg_fallThrough_spec (s : State) (x : RegNo) (b : Byte) :
    (s.setReg x b).fallThrough.reg x = b ∧ (s.setReg x b).fallThrough.pc.toNat = (s.pc.toNat + 2) % 65536 ∧
      OnlyChanges (fun p => p = .pc ∨ p = .reg x) s (s.setReg x b).fallThrough :=
  ⟨s.reg_setReg_fallThrough x b, s.setReg_fallThrough_pc_toNat x b, (s.onlyChanges_setReg x b).fallThrough⟩

/-- Settles O27: each of the four is one write of V[X], whose bits are the bits of the operation. -/
theorem assignAndLogic : Obligations.AssignAndLogic := by
  refine ⟨decodesAs_op8XY0, decodesAs_op8XY1, decodesAs_op8XY2, decodesAs_op8XY3, fun s x y => ⟨?assign, ?or, ?and, ?xor⟩⟩
  case assign => exact ⟨_, rfl, s.setReg_fallThrough_spec x (s.reg y)⟩
  case or =>
    obtain ⟨hreg, hrest⟩ := s.setReg_fallThrough_spec x (s.reg x ||| s.reg y)
    exact ⟨_, rfl, fun k _ => by rw [hreg, BitVec.getLsbD_or], hrest⟩
  case and =>
    obtain ⟨hreg, hrest⟩ := s.setReg_fallThrough_spec x (s.reg x &&& s.reg y)
    exact ⟨_, rfl, fun k _ => by rw [hreg, BitVec.getLsbD_and], hrest⟩
  case xor =>
    obtain ⟨hreg, hrest⟩ := s.setReg_fallThrough_spec x (s.reg x ^^^ s.reg y)
    exact ⟨_, rfl, fun k _ => by rw [hreg, BitVec.getLsbD_xor], hrest⟩

/-- A difference of bytes is the difference of their numbers modulo 256 (R137). -/
theorem byte_sub_toNat (a b : Byte) : (a - b).toNat = (a.toNat + 256 - b.toNat) % 256 := by
  have hb := b.isLt
  rw [BitVec.toNat_sub]
  omega

/-- A difference in V[X] with its not-borrow in VF, whichever operand is the minuend (R137, R138). -/
theorem State.setDifference_spec (s : State) (x : RegNo) (a b : Byte) :
    (x ≠ 0xF → ((s.setResultFlag x (a - b) (noBorrow a b)).fallThrough.reg x).toNat = (a.toNat + 256 - b.toNat) % 256) ∧
    (s.setResultFlag x (a - b) (noBorrow a b)).fallThrough.reg 0xF = (if a.toNat ≥ b.toNat then 0x01#8 else 0x00#8) ∧
    (s.setResultFlag x (a - b) (noBorrow a b)).fallThrough.pc.toNat = (s.pc.toNat + 2) % 65536 ∧
    OnlyChanges (fun p => p = .pc ∨ p = .reg x ∨ p = .reg 0xF) s
      (s.setResultFlag x (a - b) (noBorrow a b)).fallThrough := by
  refine ⟨fun hx => ?difference, ?flag, s.setResultFlag_fallThrough_pc_toNat x _ _,
    (s.onlyChanges_setResultFlag x _ _).fallThrough⟩
  case difference => rw [s.reg_setResultFlag_fallThrough_of_ne _ _ hx, byte_sub_toNat]
  case flag => rw [State.regVF_setResultFlag_fallThrough, noBorrow, flagByte_decide]

/-- Settles O29: the two instructions are one difference with its operands exchanged. -/
theorem subtractSetsNotBorrow : Obligations.SubtractSetsNotBorrow :=
  ⟨decodesAs_op8XY5, decodesAs_op8XY7, fun s x y =>
    ⟨⟨_, rfl, s.setDifference_spec x (s.reg x) (s.reg y)⟩, ⟨_, rfl, s.setDifference_spec x (s.reg y) (s.reg x)⟩⟩⟩

/-- The flag byte as a number (R26). -/
theorem flagByte_toNat (f : Bool) : (flagByte f).toNat = f.toNat := by
  cases f <;> rfl

/-- Bit 0 of a byte as a number (R139). -/
theorem bit0_toNat (a : Byte) : (bit0 a).toNat = a.toNat % 2 := by
  rw [bit0, BitVec.getLsbD, Nat.toNat_testBit, pow_zero, Nat.div_one]

/-- Bit 7 of a byte as a number (R141). -/
theorem bit7_toNat (a : Byte) : (bit7 a).toNat = a.toNat / 128 := by
  have ha := a.isLt
  rw [bit7, BitVec.getLsbD, Nat.toNat_testBit]
  omega

/-- Settles O30: either shift of V[X], and the flag that is the bit shifted out. -/
theorem shiftsMoveBitIntoFlag : Obligations.ShiftsMoveBitIntoFlag := by
  refine ⟨decodesAs_op8XY6, decodesAs_op8XYE, fun s x y => ⟨?right, ?left⟩⟩
  case right =>
    refine ⟨_, rfl, fun hx => ?_, ?_, s.setResultFlag_fallThrough_pc_toNat x _ _,
      (s.onlyChanges_setResultFlag x _ _).fallThrough⟩
    · rw [s.reg_setResultFlag_fallThrough_of_ne _ _ hx, BitVec.toNat_ushiftRight, Nat.shiftRight_one]
    · rw [State.regVF_setResultFlag_fallThrough, flagByte_toNat, bit0_toNat]
  case left =>
    refine ⟨_, rfl, fun hx => ?_, ?_, s.setResultFlag_fallThrough_pc_toNat x _ _,
      (s.onlyChanges_setResultFlag x _ _).fallThrough⟩
    · rw [s.reg_setResultFlag_fallThrough_of_ne _ _ hx, BitVec.toNat_shiftLeft, Nat.shiftLeft_eq]
    · rw [State.regVF_setResultFlag_fallThrough, flagByte_toNat, bit7_toNat]

/-! ### Index and random byte -/

/-- Settles O31: one write of I, one of PC; the sum of a byte and a 12-bit address does not wrap. -/
theorem loadIndexAndIndexedJump : Obligations.LoadIndexAndIndexedJump := by
  refine ⟨decodesAs_opANNN, decodesAs_opBNNN, fun s nnn => ⟨?load, ?jump⟩⟩
  case load =>
    exact ⟨_, rfl, zextAddr_toNat nnn, s.advance_pc_toNat 2, (s.onlyChanges_setI _).fallThrough⟩
  case jump =>
    refine ⟨_, rfl, ?_, s.onlyChanges_setPc _⟩
    have hreg := (s.reg 0).isLt
    have hnnn := nnn.isLt
    rw [State.setPc_pc, BitVec.toNat_add, zextByte_toNat, zextAddr_toNat]
    omega

/-- Settles O32: one write of V[X] with the cycle's random byte under the mask. -/
theorem randomByteIsMasked : Obligations.RandomByteIsMasked := by
  refine ⟨decodesAs_opCXNN, fun s x nn => ⟨_, rfl, ?_⟩⟩
  obtain ⟨hreg, hrest⟩ := s.setReg_fallThrough_spec x (s.rndIn &&& nn)
  refine ⟨fun tick rnd rest hhost => ?scripted, fun hhost => ?free, fun k hk => ?masked, hrest⟩
  case scripted => rw [hreg, State.rndIn, hhost]
  case free => rw [hreg, State.rndIn, hhost]
  case masked => rw [hreg, BitVec.getLsbD_and, hk, Bool.and_false]

/-- Settles O40: the sum modulo 65536 in I, and the flag that decides whether the unbounded sum exceeds 0x0FFF. -/
theorem addIndexFlagsAbove0FFF : Obligations.AddIndexFlagsAbove0FFF := by
  refine ⟨decodesAs_opFX1E, fun s x => ⟨_, rfl, ?sum, ?flag, s.advance_pc_toNat 2, ?frame⟩⟩
  case sum => exact (BitVec.toNat_add ..).trans (by rw [zextByte_toNat])
  case flag => exact (State.reg_setFlag _ regVF _).trans ((if_pos rfl).trans (flagByte_decide _))
  case frame => exact (exec_onlyChanges (i := .opFX1E x) rfl).mono fun _ hp => Or.imp_right Or.symm hp

/-! ### The key wait -/

/-- Settles O38: nothing happens without a key; with one, V[X] is the key that the priority reports. -/
theorem keyWaitReportsPressedKey : Obligations.KeyWaitReportsPressedKey := by
  refine ⟨decodesAs_opFX0A, fun s x => ?_⟩
  rcases execFX0A_cases s x with ⟨hup, he⟩ | ⟨k, hrep, hk, he⟩
  · refine ⟨fun _ => ⟨s, he, fun p _ => Part.same_refl p⟩, fun ⟨k, hk⟩ => ?_⟩
    rw [hup k] at hk
    cases hk
  · refine ⟨fun hup => ?_, fun _ => ?_⟩
    · rw [hup k] at hk
      cases hk
    · refine ⟨_, k, he, hk, ?_, fun hp => ?_, fun hp => ?_, s.advance_pc_toNat 2, (s.onlyChanges_setReg x _).fallThrough⟩
      · exact (congrArg BitVec.toNat (s.reg_setReg_fallThrough x _)).trans (byte_ofNat_toNat (by omega))
      · rw [hp, reportedKey_highest] at hrep
        exact hrep.2
      · rw [hp, reportedKey_lowest] at hrep
        exact hrep.2

/-! ### The cycle's inputs -/

section

variable {s t : State} (host : List HostEvent) (draws : Nat)

/-- A block write does not look at the script. -/
theorem State.memWriteList_setHost (s : State) (base : Word) (off : Nat) (bs : List Byte) :
    (s.setHost host draws).memWriteList base off bs = (s.memWriteList base off bs).setHost host draws := by
  induction bs generalizing s off with
  | nil => rfl
  | cons b rest ih => exact ih (s.memWrite base off b) (off + 1)

/-- A block load does not look at the script. -/
theorem State.setRegsFrom_setHost (s : State) (r : Nat) (bs : List Byte) :
    (s.setHost host draws).setRegsFrom r bs = (s.setRegsFrom r bs).setHost host draws := by
  induction bs generalizing s r with
  | nil => rfl
  | cons b rest ih => exact ih (s.setReg (Fin.ofNat 16 r) b) (r + 1)

theorem execFX0A_of_none (x : RegNo) (h : reportedKey s.cfg.keyPriority s.key = none) : execFX0A x s = .next s := by
  rw [execFX0A, h]

theorem execFX0A_of_some (x : RegNo) {k : KeyNo} (h : reportedKey s.cfg.keyPriority s.key = some k) :
    execFX0A x s = .next (s.setReg x (BitVec.ofNat 8 k.val)).fallThrough := by
  rw [execFX0A, h]

/-- Under another script and draw counter an instruction other than CXNN does the same (R152, R231). -/
theorem exec_setHost {i : Instr} (hi : ∀ x nn, i ≠ .opCXNN x nn) (h : exec i s = .next t) :
    exec i (s.setHost host draws) = .next (t.setHost host draws) := by
  cases i with
  | opCXNN x nn => exact absurd rfl (hi x nn)
  | op00EE =>
    obtain ⟨hsp, he⟩ | ⟨hsp, he⟩ := exec00EE_cases s <;> cases he.symm.trans h
    · exact exec_return_empty (s.setHost host draws) (congrArg Fin.val hsp)
    · exact exec_return_pop (s.setHost host draws) hsp
  | op2NNN nnn =>
    obtain ⟨hsp, he⟩ | ⟨hsp, he⟩ := exec2NNN_cases s nnn <;> cases he.symm.trans h
    · exact exec_call_full (s.setHost host draws) nnn (congrArg Fin.val hsp)
    · exact exec_call_push (s.setHost host draws) nnn hsp
  | opFX0A x =>
    cases hr : reportedKey s.cfg.keyPriority s.key with
    | none =>
      cases (execFX0A_of_none x hr).symm.trans h
      exact execFX0A_of_none (s := s.setHost host draws) x hr
    | some k =>
      cases (execFX0A_of_some x hr).symm.trans h
      exact execFX0A_of_some (s := s.setHost host draws) x hr
  | opFX33 x =>
    cases h
    exact congrArg (fun u : State => Host.Outcome.next u.fallThrough) (s.memWriteList_setHost host draws s.i 0 _)
  | opFX55 x =>
    cases h
    exact congrArg (fun u : State => Host.Outcome.next (u.setI _).fallThrough) (s.memWriteList_setHost host draws s.i 0 _)
  | opFX65 x =>
    cases h
    exact congrArg (fun u : State => Host.Outcome.next (u.setI _).fallThrough) (s.setRegsFrom_setHost host draws 0 _)
  | _ => cases h; rfl

end

/-- Settles O33: the instruction does not look at the inputs, and no instruction changes them. -/
theorem onlyRandomReadsInputs : Obligations.OnlyRandomReadsInputs :=
  fun _ _ _ host draws hi h => ⟨exec_setHost host draws hi h,
    exec_same h (p := .host) (not_mayChange_of_neverChanged trivial),
    exec_same h (p := .draws) (not_mayChange_of_neverChanged trivial)⟩

/-! ### The block store, read back and fetched -/

/-- Settles O45: the block load reads the bytes the block store wrote, and both move I on by X + 1. -/
theorem storeThenLoadRestores : Obligations.StoreThenLoadRestores := by
  intro s t u x h hmem hcfg hi
  obtain ⟨t', ht', hstored, hti, -⟩ := storeRegistersBlock.2 s x
  obtain ⟨u', hu', hloaded, hui, -⟩ := loadRegistersBlock.2 u x
  cases ht'.symm.trans h
  have hbyte (a : Nat) : u.byteAt a = t.byteAt a := by rw [State.byteAt, State.byteAt, hmem, hcfg]
  refine ⟨u', hu', fun k hk => ?_, BitVec.eq_of_toNat_eq ?_⟩
  · rw [hloaded k hk, hi, hbyte, hstored k hk]
  · rw [hui, hti, hi]

/-- Settles O59: the fetch after the store reads its bytes 0 and 1, since PC after it is the I it started from. -/
theorem storeIsSeenByNextFetch : Obligations.StoreIsSeenByNextFetch := by
  intro s t x h hx hi
  obtain ⟨t', ht', hstored, -, hpc, -⟩ := storeRegistersBlock.2 s x
  cases ht'.symm.trans h
  have hpci : t.pc = s.i := BitVec.eq_of_toNat_eq (hpc.trans hi.symm)
  rw [State.fetchWord_toNat, hpci]
  exact congrArg₂ (fun a b : Byte => 256 * a.toNat + b.toNat) (hstored 0 (Nat.zero_le _)) (hstored 1 hx)

/-! ### The canonical memory -/

section

variable {font : Vector Byte 80}

theorem Memory.wfFrom_cons {lo k : Nat} {y : Byte} {rest : Memory} : Memory.wfFrom font lo ((k, y) :: rest) = true ↔
    lo ≤ k ∧ k < memSize ∧ y ≠ Memory.background font k ∧ Memory.wfFrom font (k + 1) rest = true := by
  simp only [Memory.wfFrom, Bool.and_eq_true, decide_eq_true_eq, and_assoc]

/-- A canonical memory lists no byte that the background has (R38). -/
theorem Memory.ne_background_of_lookup {lo a : Nat} {b : Byte} {m : Memory} (hw : Memory.wfFrom font lo m = true)
    (h : Memory.lookup m a = some b) : b ≠ Memory.background font a := by
  induction m generalizing lo with
  | nil => cases h
  | cons c rest ih =>
    obtain ⟨k, y⟩ := c
    obtain ⟨-, -, hy, hrest⟩ := Memory.wfFrom_cons.mp hw
    simp only [Memory.lookup] at h
    split at h
    case isTrue hk =>
      cases h
      exact hk ▸ hy
    case isFalse => exact ih hrest h

/-- Canonical memories that read the same list the same. -/
theorem Memory.lookup_eq_of_read_eq {m m' : Memory} (hw : Memory.wf font m = true) (hw' : Memory.wf font m' = true)
    (h : ∀ a < 4096, Memory.read font m a = Memory.read font m' a) (a : Nat) : Memory.lookup m a = Memory.lookup m' a := by
  rcases Nat.lt_or_ge a 4096 with ha | ha
  · have hread := h a ha
    simp only [Memory.read] at hread
    cases hm : Memory.lookup m a <;> cases hm' : Memory.lookup m' a <;> simp only [hm, hm', Option.getD] at hread
    case none.none => rfl
    case none.some => exact absurd hread.symm (Memory.ne_background_of_lookup hw' hm')
    case some.none => exact absurd hread (Memory.ne_background_of_lookup hw hm)
    case some.some => rw [hread]
  · rw [Memory.lookup_above font m a 0 hw ha, Memory.lookup_above font m' a 0 hw' ha]

theorem Memory.lookup_cons_self (k : Nat) (y : Byte) (rest : Memory) : Memory.lookup ((k, y) :: rest) k = some y :=
  if_pos rfl

/-- The first address a canonical memory lists is the smallest. -/
theorem Memory.head_le_of_lookup {lo k a : Nat} {y b : Byte} {rest : Memory}
    (hw : Memory.wfFrom font lo ((k, y) :: rest) = true) (h : Memory.lookup ((k, y) :: rest) a = some b) : k ≤ a := by
  obtain ⟨-, hk, hy, hrest⟩ := Memory.wfFrom_cons.mp hw
  by_contra hlt
  have hnone := Memory.lookup_below font _ a k (Memory.wfFrom_cons.mpr ⟨le_refl k, hk, hy, hrest⟩) (Nat.not_le.mp hlt)
  cases hnone.symm.trans h

/-- Canonical memories that list the same are the same list, entry by entry from the smallest address. -/
theorem Memory.eq_of_lookup_eq {lo : Nat} {m m' : Memory} (hw : Memory.wfFrom font lo m = true)
    (hw' : Memory.wfFrom font lo m' = true) (h : ∀ a, Memory.lookup m a = Memory.lookup m' a) : m = m' := by
  induction m generalizing lo m' with
  | nil =>
    cases m' with
    | nil => rfl
    | cons c' rest' => cases (h c'.1).trans (Memory.lookup_cons_self c'.1 c'.2 rest')
  | cons c rest ih =>
    obtain ⟨k, y⟩ := c
    have hk := Memory.lookup_cons_self k y rest
    cases m' with
    | nil => cases hk.symm.trans (h k)
    | cons c' rest' =>
      obtain ⟨k', y'⟩ := c'
      have hk' := Memory.lookup_cons_self k' y' rest'
      have hle : k ≤ k' := Memory.head_le_of_lookup hw ((h k').trans hk')
      have hle' : k' ≤ k := Memory.head_le_of_lookup hw' ((h k).symm.trans hk)
      obtain rfl : k = k' := Nat.le_antisymm hle hle'
      obtain rfl : y = y' := Option.some.inj (hk.symm.trans ((h k).trans hk'))
      obtain ⟨-, -, -, hrest⟩ := Memory.wfFrom_cons.mp hw
      obtain ⟨-, -, -, hrest'⟩ := Memory.wfFrom_cons.mp hw'
      refine congrArg _ (ih hrest hrest' fun a => ?_)
      by_cases ha : k = a
      · rw [Memory.lookup_below font rest a _ hrest (by omega), Memory.lookup_below font rest' a _ hrest' (by omega)]
      · simpa only [Memory.lookup, if_neg ha] using h a

end

/-- Settles O54: reads give the listed bytes, and the listed bytes give the list. -/
theorem canonicalMemoryIsItsReads : Obligations.CanonicalMemoryIsItsReads :=
  fun _ _ _ hw hw' h => Memory.eq_of_lookup_eq hw hw' (Memory.lookup_eq_of_read_eq hw hw' h)

end Sys2Proof.Machine

/-! SUPPORT. Family other: the sprite DXYN draws (spec/45_draw_dxyn.md R160 to R165). -/

namespace Sys2Proof.Machine

/-! ### The cells a sprite addresses -/

/-- Two cells are one when their coordinates are (R39). -/
theorem Pixel.eq_iff {p q : Pixel} : p = q ↔ q.x.val = p.x.val ∧ q.y.val = p.y.val := by
  cases p
  cases q
  simp only [Pixel.mk.injEq, Fin.ext_iff, eq_comm]

section

variable {s t : State} {x y : RegNo} {n : Fin 16} {p : Pixel}

/-- The position (x, y) lands on the cell `Cell(x, y)` and on no other (R162). -/
theorem landsOn_iff (s : State) (x y : Nat) (p : Pixel) : landsOn s x y p ↔ cellOf s.cfg.drawWrap s.ext x y = p := by
  unfold landsOn
  split
  case h_1 hwrap => rw [hwrap, Pixel.eq_iff, (cellOf_linear _ _ _).1, (cellOf_linear _ _ _).2]
  case h_2 hwrap => rw [hwrap, Pixel.eq_iff, (cellOf_perAxis _ _ _).1, (cellOf_perAxis _ _ _).2]

/-- A position lands inside the active grid (R39, R162). -/
theorem landsOn_inside {x y : Nat} (h : landsOn s x y p) : p.x.val < gridW s.ext ∧ p.y.val < gridH s.ext := by
  unfold landsOn at h
  split at h <;> rw [h.1, h.2] <;> rcases gridW_cases s.ext with ⟨hw, hh⟩ | ⟨hw, hh⟩ <;> rw [hw, hh] <;> omega

/-- The cells of the model's sprite are the cells the sprite hits. -/
theorem mem_drawnCells : p ∈ drawnCells s x y n ↔ spriteHits s x y n p := by
  simp only [drawnCells, mem_spriteCells, State.memReadList_length, State.memReadList_getElem, exists_prop, spriteHits,
    spriteBit, landsOn_iff, State.memRead]

/-- A sprite of at most 15 rows hits no cell twice (R163). -/
theorem drawnCells_nodup : (drawnCells s x y n).Nodup :=
  spriteCells_nodup _ _ _ _ _ (by rw [State.memReadList_length]; omega)

/-- What a draw sees of the state: after another draw, with neither coordinate in VF, it is the same. -/
theorem spriteHits_congr (hx : x ≠ 0xF) (hy : y ≠ 0xF)
    (h : OnlyChanges (fun p => p = .pc ∨ p = .dirty ∨ p = .reg 0xF ∨ ∃ q, p = .cell q) s t) :
    spriteHits t x y n p ↔ spriteHits s x y n p := by
  have hrx : t.reg x = s.reg x := h (.reg x) (by simpa using hx)
  have hry : t.reg y = s.reg y := h (.reg y) (by simpa using hy)
  have hi : t.i = s.i := h .i (by simp)
  have hext : t.ext = s.ext := h .ext (by simp)
  have hcfg : t.cfg = s.cfg := h .cfg (by simp)
  have hmem (a : Nat) : t.byteAt a = s.byteAt a := h (.mem a) (by simp)
  simp only [spriteHits, spriteBit, landsOn_iff, hrx, hry, hi, hext, hcfg, hmem]

end

/-! ### The draw -/

/-- The sprite's cells collide exactly when the sprite hits a set cell (R160, R163). -/
theorem drawnCells_collide_iff (s : State) (x y : RegNo) (n : Fin 16) :
    ((drawnCells s x y n).any fun p => pixelOf s.fb p) = true ↔ ∃ p, spriteHits s x y n p ∧ pixelOf s.fb p = true := by
  simp only [List.any_eq_true, mem_drawnCells]

/-- VF after a draw is the collision flag, which stands through the writes after it (R160). -/
theorem State.regVF_drawn (s : State) (fb : FrameBuffer) (f : Bool) :
    (((s.setFb fb).setFlag f).setDirty true).fallThrough.reg 0xF = flagByte f :=
  (State.reg_setFlag (s.setFb fb) regVF f).trans (if_pos rfl)

/-- Settles O34: the blit over the sprite's distinct cells toggles those cells and collides exactly when one of them was set. -/
theorem drawXorsSprite : Obligations.DrawXorsSprite := by
  refine ⟨decodesAs_opDXYN, fun s x y n => ?_⟩
  obtain ⟨hpixel, hcollide⟩ := blit_spec s.fb (drawnCells s x y n) drawnCells_nodup
  refine ⟨_, rfl, fun p hp => ?hit, fun p hp => ?missed, fun hset => ?collision, fun hnone => ?clear, rfl,
    State.advance_pc_toNat _ 2, exec_onlyChanges (i := .opDXYN x y n) rfl⟩
  case hit => exact (hpixel p).trans (if_pos (mem_drawnCells.mpr hp))
  case missed => exact (hpixel p).trans (if_neg (mt mem_drawnCells.mp hp))
  case collision => rw [State.regVF_drawn, hcollide, (drawnCells_collide_iff s x y n).mpr hset, flagByte, if_pos rfl]
  case clear =>
    rw [State.regVF_drawn, hcollide, Bool.eq_false_iff.mpr (mt (drawnCells_collide_iff s x y n).mp hnone)]
    rfl

/-- Settles O35: the second draw hits the cells the first hit, and toggles them back. -/
theorem drawTwiceErases : Obligations.DrawTwiceErases := by
  intro s t x y n hx hy h
  obtain ⟨t', ht', hhit, hmiss, -, hclear, -, -, hframe⟩ := drawXorsSprite.2 s x y n
  cases ht'.symm.trans h
  obtain ⟨u, hu, hhit', hmiss', hset', -, -⟩ := drawXorsSprite.2 t x y n
  have hsame (p : Pixel) : spriteHits t x y n p ↔ spriteHits s x y n p := spriteHits_congr hx hy hframe
  refine ⟨u, hu, fun p => ?restored, fun ⟨r, hr, c, hc, hbit⟩ hblank => ⟨hclear ?_, hset' ?_⟩⟩
  case restored =>
    by_cases hp : spriteHits s x y n p
    · rw [hhit' p ((hsame p).mpr hp), hhit p hp, Bool.not_not]
    · rw [hmiss' p (mt (hsame p).mp hp), hmiss p hp]
  · rintro ⟨p, hp, hset⟩
    rw [hblank p hp] at hset
    cases hset
  · have hp : spriteHits s x y n (cellOf s.cfg.drawWrap s.ext ((s.reg x).toNat + c) ((s.reg y).toNat + r)) :=
      ⟨r, hr, c, hc, hbit, (landsOn_iff _ _ _ _).mpr rfl⟩
    exact ⟨_, (hsame _).mpr hp, by rw [hhit _ hp, hblank _ hp]; rfl⟩

/-- Settles O36: a cell that changes is one the sprite lands on, and a position lands inside the grid. -/
theorem drawStaysInActiveGrid : Obligations.DrawStaysInActiveGrid := by
  intro s t x y n p h hne
  obtain ⟨t', ht', -, hmiss, -⟩ := drawXorsSprite.2 s x y n
  cases ht'.symm.trans h
  obtain ⟨r, -, c, -, -, hlands⟩ := by_contra fun hp => hne (hmiss p hp)
  exact landsOn_inside hlands

end Sys2Proof.Machine
